-- ==== Sys2Proof/Word.lean ====
section
/-!
DEFINITION. The words of the PF-4 and the numbers of its instances (spec/00_scope.md, 0.3 and 0.8).
-/

namespace Sys2Proof

/-- One byte of the serial line. -/
abbrev Byte := BitVec 8

/-- A 16-bit word: a mark's tag, a sequence number, a filter key. -/
abbrev Word16 := BitVec 16

/-- A 32-bit word: the timebase (R84). -/
abbrev Word32 := BitVec 32

/-- Axis 0 to axis 3. -/
abbrev AxisNo := Fin 4

/-- Trigger line T0 to T7. -/
abbrev TriggerNo := Fin 8

/-- Capture line C0 to C3. -/
abbrev CaptureNo := Fin 4

/-- Filter table entry 0 to 15 (5.3). -/
abbrev EntryNo := Fin 16

/-- Tally unit 0 to 7 (5.4). -/
abbrev UnitNo := Fin 8

/-- Reply slot 0 to 9 (R141). -/
abbrev SlotNo := Fin 10

/-- A set of axes as the line carries it: member `n` is present when bit `n` is 1 (10.1). -/
abbrev AxisSet := BitVec 4

/-- The four axes in ascending order. -/
def allAxes : List AxisNo := [0, 1, 2, 3]

/-- The four capture lines in ascending order. -/
def allCaptures : List CaptureNo := [0, 1, 2, 3]

/-- The ten reply slots in ascending order. -/
def allSlots : List SlotNo := [0, 1, 2, 3, 4, 5, 6, 7, 8, 9]

end Sys2Proof
end

