-- ==== Sys2Proof/Syntax.lean ====
section
/-!
DEFINITION. The commands of the PF-4: one constructor per row of spec/opcode_table.json, in the table's order.

A command names a step of the part and, where the part has several of the thing, which one takes the step. It carries a
value only where something comes from outside the part: strap levels, pin levels, bytes and frames of the host. What a
block has handed on, and what a request holds, stands in the machine's state, not in the command.
-/

namespace Sys2Proof

/-- What discards a frame in the step FRAME_DISCARD (R129). -/
inductive Discard where
  /-- A character whose stop bit is sampled low (R125). -/
  | characterError
  /-- The receiver has taken the last byte of a frame whose LEN is out of range or whose CRC fails; `held` are the
  frame's bytes from the LEN byte on. -/
  | damaged (held : List Byte)
deriving DecidableEq, Repr

/-- The levels that a sample finds at the pins of the capture lines and of the host line. -/
structure LinePins where
  /-- Bit `n` is the level of capture pin `Cn`. -/
  captures : BitVec 4
  /-- The level of RXD, or `none` when it has not changed. -/
  rxd : Option Bool
deriving DecidableEq, Repr

/-- The levels that the end of power-on or the release of RESETN finds at the strap pins and at RXD (R125, R126). -/
structure ResetPins where
  /-- The levels of S1 and S0. -/
  straps : BitVec 2
  /-- The level that RXD shows, or `none` when nothing shows it yet. -/
  rxd : Option Bool
deriving DecidableEq, Repr

/-- The commands. -/
inductive Instr where
  /-- POWER_ON: power-on ends with the strap pins and RXD at `pins`. -/
  | powerOn (pins : ResetPins)
  /-- RESET_PIN: RESETN is driven low. -/
  | resetPin
  /-- RESET_PIN_RELEASE: RESETN is released with the strap pins and RXD at `pins`. -/
  | resetPinRelease (pins : ResetPins)
  /-- PATTERN_CHANGE: the decoder of an axis takes the pattern change of the sample. -/
  | patternChange (axis : AxisNo)
  /-- STEP: the axis controller takes the step its decoder hands. -/
  | step (axis : AxisNo)
  /-- SKIP_NOTICE: the axis controller takes the skip notice its decoder hands. -/
  | skipNotice (axis : AxisNo)
  /-- INDEX_ARRIVAL: the decoder judges the index edge of the sample and the axis controller takes the index arrival. -/
  | indexArrival (axis : AxisNo)
  /-- ARRIVAL_EVALUATION: the mark schedule takes the arrival the axis controller hands. -/
  | arrivalEvaluation (axis : AxisNo)
  /-- CAPTURE_EDGE: the capture unit takes the edge the line's filter hands. -/
  | captureEdge (line : CaptureNo)
  /-- CAPTURE_RELEASE_CLAIM: the mark schedule takes the line's release claim. -/
  | captureReleaseClaim (line : CaptureNo)
  /-- PULSE_EXPIRY: the pulse end time of a trigger line. -/
  | pulseExpiry (line : TriggerNo)
  /-- HOLDOFF_EXPIRY: the holdoff end of a capture line. -/
  | holdoffExpiry (line : CaptureNo)
  /-- SPEED_GATE_EXPIRY: the gate timer of an axis. -/
  | speedGateExpiry (axis : AxisNo)
  /-- HOMING_TIMER_EXPIRY: the homing timer of an axis. -/
  | homingTimerExpiry (axis : AxisNo)
  /-- TALLY_WINDOW_EXPIRY: the window timer of a tally unit. -/
  | tallyWindowExpiry (unit : UnitNo)
  /-- REQUEST_FRAME: the receiver completes a good REQUEST frame. -/
  | requestFrame (tag code : Byte) (args : List Byte)
  /-- ACK_FRAME: the receiver completes a good ACK frame. -/
  | ackFrame (seq : Word16)
  /-- NAK_FRAME: the receiver completes a good NAK frame. -/
  | nakFrame (seq : Word16)
  /-- FRAME_DISCARD: a frame in progress is discarded and its held bytes are judged again. -/
  | frameDiscard (cause : Discard)
  /-- WRONG_KIND_FRAME: the receiver completes a good frame that it discards for its kind or body length. -/
  | wrongKindFrame (kind : Byte) (body : List Byte)
  /-- GAP_TIMER_EXPIRY: the receiver's gap timer. -/
  | gapTimerExpiry
  /-- BREAK_DETECTED: RXD has been low for 1 ms. -/
  | breakDetected
  /-- BREAK_END: RXD has been high for 1 ms. -/
  | breakEnd
  /-- ARBITER_CHOICE: the transmit arbiter makes a choice. -/
  | arbiterChoice
  /-- FRAME_COMPLETION: the stop bit of the frame's last byte ends; `straps` are the strap pins at that moment, which a
  RESET_DEVICE taking effect samples. -/
  | frameCompletion (straps : BitVec 2)
  /-- ACK_TIMER_EXPIRY: the session's ack timer. -/
  | ackTimerExpiry
  /-- DRAIN_TIMER_EXPIRY: the drain timer. -/
  | drainTimerExpiry
  /-- UNKNOWN_REQUEST: the executing request's code names no request. -/
  | unknownRequest
  /-- IDENTIFY: the executing request, as each of the rows down to RESET_DEVICE. -/
  | identify
  /-- STATUS. -/
  | status
  /-- TIME. -/
  | time
  /-- CONFIGURE_AXIS. -/
  | configureAxis
  /-- ENABLE_AXIS. -/
  | enableAxis
  /-- DISABLE_AXIS. -/
  | disableAxis
  /-- CLEAR_FAULT. -/
  | clearFault
  /-- SET_POSITION. -/
  | setPosition
  /-- QUERY_AXIS. -/
  | queryAxis
  /-- HOME. -/
  | home
  /-- ADD_MARKS. -/
  | addMarks
  /-- REMOVE_MARKS. -/
  | removeMarks
  /-- RELEASE_MARKS. -/
  | releaseMarks
  /-- LIST_MARKS. -/
  | listMarks
  /-- CONFIGURE_OUTPUT. -/
  | configureOutput
  /-- PULSE_OUTPUT. -/
  | pulseOutput
  /-- CONFIGURE_CAPTURE. -/
  | configureCapture
  /-- SET_FILTER. -/
  | setFilter
  /-- READ_FILTER. -/
  | readFilter
  /-- CONFIGURE_TALLY. -/
  | configureTally
  /-- READ_TALLY. -/
  | readTally
  /-- OPEN_SESSION. -/
  | openSession
  /-- CLOSE_SESSION. -/
  | closeSession
  /-- DRAIN. -/
  | drain
  /-- ABORT. -/
  | abort
  /-- RESET_DEVICE. -/
  | resetDevice
  /-- SAMPLE: one sample instant; bit `3a + i` of `sensors` is the level of input `i` (0: A, 1: B, 2: Z) of axis `a`, and
  `lines` holds the levels of the other pins. -/
  | sample (sensors : BitVec 12) (lines : LinePins)
  /-- TIMEBASE_TICK: a microsecond of the timebase has passed. -/
  | timebaseTick
  /-- RXD_BYTE: a good character on RXD gives a byte. -/
  | rxdByte (byte : Byte)
deriving DecidableEq, Repr

end Sys2Proof
end

