-- ==== Sys2Proof/Decode.lean ====
section
/-!
DEFINITION. The decoder of the commands' words. spec/opcode_table.json gives bits to none of its rows (every row's "fields"
is empty and no row has a pattern), so no word spells a command.
-/

namespace Sys2Proof

/-- The command that a word spells by the table's bits: the table gives no row any bits. -/
def decodeTableWord (_nbits _w : Nat) : Option Instr := none

end Sys2Proof
end

