-- ==== Sys2Proof/Config.lean ====
section
/-!
DEFINITION. What the PF-4 fixes for every run (capacities, codes, the clock's periods) and the FREE VALUES: the constants
without a body that stand for what the spec leaves open. Nothing in Lean can evaluate a free value or prove which it is.
-/

namespace Sys2Proof.Config

/-- R42: the pool's mark entries. -/
def poolSize : Nat := 240

/-- R110: the report queue's capacity. -/
def queueSize : Nat := 192

/-- R142: the request queue's capacity. -/
def requestQueueSize : Nat := 4

/-- R139, R150: the part code. -/
def partCode : Byte := 0x46

/-- R139, R150: the revision. -/
def revision : Byte := 1

/-- Periods of the 20 MHz clock in a microsecond: a sample period is 50 ns (1.1). -/
def periodsPerMicro : Nat := 20

/-- Periods of the 20 MHz clock in a millisecond. -/
def periodsPerMilli : Nat := 20000

/-- R130: the inter-byte limit of 2 ms, in clock periods. -/
def gapLimit : Nat := 2 * periodsPerMilli

/-- FREE VALUE (log entry 3): which of several waiting hand-overs of one sample is taken next, and in which order a line
break's STATE records are handed on. The spec states no order between different axes and capture lines (R1, R48, R133). -/
opaque pickOrder : Nat → Nat

/-- FREE VALUE (log entry 15): whether the start of execution of the oldest queued request comes before a REQUEST frame that finds
the queue full while that start is due (R144, "either may be taken first"). -/
opaque startFirst : Nat → Bool

/-- FREE VALUE (log entry 12): which of the empty event and a drain timer that has run out reaches the handler first
(R153, "either may be taken first"). -/
opaque emptyFirst : Nat → Bool

/-- FREE VALUE (log entry 9): the pattern that QUERY_AXIS shows while the awaiting-pattern flag is set, when the current
pattern "has no meaning" (1.4). -/
opaque meaninglessPattern : Nat → BitVec 3

/-- FREE VALUE (log entry 10): the four bytes in which a homing step total above 4 294 967 295 is shown. -/
opaque wideStepTotal : Nat → Word32

end Sys2Proof.Config
end

