-- ==== Sys2Proof/Machine/Crc.lean ====
section
/-!
DEFINITION. Bytes of fields (10.1), the frame check (R127) and the form of a frame (7.2, 10.2).
-/

namespace Sys2Proof.Machine

/-- One byte from a number. -/
def byte8 (n : Nat) : Byte := BitVec.ofNat 8 n

/-- A 16-bit field, most significant byte first (10.1). -/
def bytes16 (x : Word16) : List Byte := [x.extractLsb' 8 8, x.extractLsb' 0 8]

/-- A 32-bit field, most significant byte first (10.1). -/
def bytes32 (x : Word32) : List Byte :=
  [x.extractLsb' 24 8, x.extractLsb' 16 8, x.extractLsb' 8 8, x.extractLsb' 0 8]

/-- A 16-bit field from a number. -/
def nat16 (n : Nat) : List Byte := bytes16 (BitVec.ofNat 16 n)

/-- A 32-bit field from a number. -/
def nat32 (n : Nat) : List Byte := bytes32 (BitVec.ofNat 32 n)

/-- A signed 32-bit field in two's complement (10.1). -/
def int32 (x : Int) : List Byte := bytes32 (BitVec.ofInt 32 x)

/-- One shift of the check register with the polynomial 0x1021 (R127). -/
def crcShift (r : Word16) : Word16 :=
  if r.getLsbD 15 then (r <<< 1) ^^^ 0x1021 else r <<< 1

/-- One byte combined with the check register (R127). -/
def crcByte (r : Word16) (b : Byte) : Word16 :=
  let r0 := r ^^^ (b.zeroExtend 16 <<< 8)
  crcShift (crcShift (crcShift (crcShift (crcShift (crcShift (crcShift (crcShift r0)))))))

/-- R127: the CRC of the LEN, KIND and body bytes. -/
def crc (bytes : List Byte) : Word16 := bytes.foldl crcByte 0xFFFF

/-- 7.2: the sync byte. -/
def syncByte : Byte := 0x9C

/-- A good frame as the receiver holds it: its KIND byte and its body. -/
structure Frame where
  kind : Byte
  body : List Byte
deriving DecidableEq, Repr

/-- The LEN, KIND and body bytes of a frame, which the CRC covers. -/
def Frame.covered (f : Frame) : List Byte := byte8 (f.body.length + 1) :: f.kind :: f.body

/-- 7.2: every byte of a frame, from the sync byte to the second CRC byte. -/
def Frame.bytes (f : Frame) : List Byte := syncByte :: (f.covered ++ bytes16 (crc f.covered))

/-- R128: a LEN byte in range. -/
def lenInRange (len : Byte) : Bool := 1 ≤ len.toNat && len.toNat ≤ 200

/-- R127: LEN, KIND, body and CRC bytes agree. -/
def crcAgrees (len : Byte) (rest : List Byte) : Bool :=
  bytes16 (crc (len :: rest.take len.toNat)) == rest.drop len.toNat

/-- R129: the bytes of a frame, from its LEN byte on, for which the frame is discarded when the last of them is taken: a
LEN out of range, alone, or a whole frame that fails the CRC. -/
def damagedBytes : List Byte → Bool
  | [] => false
  | len :: rest =>
    if lenInRange len then rest.length == len.toNat + 2 && !crcAgrees len rest else rest.isEmpty

/-- R131: the kind codes of the host's frames (10.2). -/
def kindRequest : Byte := 0x51
/-- R131: ACK (10.2). -/
def kindAck : Byte := 0x52
/-- R131: NAK (10.2). -/
def kindNak : Byte := 0x53
/-- REPLY (10.2). -/
def kindReply : Byte := 0xA1
/-- REPORT (10.2). -/
def kindReport : Byte := 0xA2
/-- ANNOUNCE (10.2). -/
def kindAnnounce : Byte := 0xA3

/-- R131: a good frame that is discarded for its kind or its body length. -/
def wrongKind (f : Frame) : Bool :=
  if f.kind = kindRequest then f.body.length < 2
  else if f.kind = kindAck ∨ f.kind = kindNak then f.body.length ≠ 2
  else true

end Sys2Proof.Machine
end

