-- ==== Sys2Proof/Machine/State.lean ====
section
/-!
DEFINITION. The state of the PF-4: every item the spec gives each block of 0.3, as plain data, and the state after reset.

Moments (a pulse end time, a holdoff end, the end of a running timer) are counted in periods of the 20 MHz clock, of which
`State.clock` is the number since sampling began (R87, log entry 4). Fields that are the model's own and not the spec's
say so.
-/

namespace Sys2Proof.Machine

/-! ## Enumerations (10.4) -/

/-- 0.6: the direction of a step. -/
inductive Direction where | up | down
deriving DecidableEq, Repr

/-- Mark and HOME qualifiers. -/
inductive Qualifier where | up | down | either
deriving DecidableEq, Repr

/-- R20. -/
inductive AxisState where | disabled | free | seeking | referenced | faulted
deriving DecidableEq, Repr

/-- 1.3. -/
inductive InputMode where | quad | quadIndex | hall3
deriving DecidableEq, Repr

/-- R93. -/
inductive FaultKind where | quadJump | hallJump | hallInvalid | indexDrift
deriving DecidableEq, Repr

/-- R21: the cause of a change of axis state. -/
inductive StateCause where | request | index | fault | homeFailed | linkBreak
deriving DecidableEq, Repr

/-- An accepted change of a filter: to the high level or to the low level (R2, R6). -/
inductive Edge where | rising | falling
deriving DecidableEq, Repr

/-- 4.2: which filtered edges a capture line takes. -/
inductive EdgeSelect where | none | rising | falling | both
deriving DecidableEq, Repr

/-- 4.1. -/
inductive OutputMode where | pulse | toggle
deriving DecidableEq, Repr

/-- 4.1: the conflict policy. -/
inductive Policy where | retrigger | refuse
deriving DecidableEq, Repr

/-- R79. -/
inductive SnapStatus where | invalid | unreferenced | referenced
deriving DecidableEq, Repr

/-- 5.3. -/
inductive Verdict where | deliver | discard
deriving DecidableEq, Repr

/-- 5.4. -/
inductive TallyMode where | off | once | restart | window
deriving DecidableEq, Repr

/-- R94. -/
inductive TallyReason where | threshold | window
deriving DecidableEq, Repr

/-- R110. -/
inductive EntryState where | pending | outstanding
deriving DecidableEq, Repr

/-- R160. -/
inductive SessionState where | closed | opened | stalled
deriving DecidableEq, Repr

/-- R139. -/
inductive AnnounceCause where | powerOn | resetPin | resetRequest | linkBreak
deriving DecidableEq, Repr

/-- 7.3. -/
inductive ReceiverState where | hunt | length | body | check
deriving DecidableEq, Repr

/-- R142. -/
inductive HandlerMode where | taking | resetPending
deriving DecidableEq, Repr

/-- 8.4: the fifteen status codes. -/
inductive Status where
  | ok | queueFull | unknownRequest | badLength | badArgument | wrongState | busy | unsupported
  | poolFull | noSuchRequest | aborted | interrupted | noIndex | timedOut | faulted
deriving DecidableEq, Repr

/-! ## Records (5.2) -/

/-- R79: one reading of a snapshot. -/
structure SnapEntry where
  axis : AxisNo
  status : SnapStatus
  position : Int
deriving DecidableEq, Repr

/-- A count of firings: a mark's count, or a FIRE record's firings left (3.2, R54). -/
inductive Firings where
  | counted (n : Nat)
  | endless
deriving DecidableEq, Repr

/-- R90. -/
structure FireRecord where
  axis : AxisNo
  tag : Word16
  position : Int
  direction : Direction
  skipped : Bool
  final : Bool
  outputBusy : Bool
  left : Firings
  released : Option Nat
  snapshot : Option (List SnapEntry)
deriving DecidableEq, Repr

/-- R113: the loss tally, three saturating counts. -/
structure Loss where
  fire : Nat
  capture : Nat
  other : Nat
deriving DecidableEq, Repr

/-- The kind and the fields of a record (R90 to R94). -/
inductive RecordBody where
  | fire (r : FireRecord)
  | capture (line : CaptureNo) (edge : Edge) (snapshot : List SnapEntry) (released : Option Nat)
  | index (axis : AxisNo) (position : Int) (drift : Option Int) (corrected : Bool)
  | skip (axis : AxisNo) (position : Int) (direction : Direction)
  | fault (axis : AxisNo) (kind : FaultKind) (position : Int)
  | state (axis : AxisNo) (old new : AxisState) (cause : StateCause)
  | tally (unit : UnitNo) (reason : TallyReason) (count : Nat)
  | gap (lost : Loss)
deriving DecidableEq, Repr

/-- R85: a record with the timebase value of its formation. -/
structure Record where
  stamp : Word32
  body : RecordBody
deriving DecidableEq, Repr

/-! ## Input filters and step decoders (chapter 1) -/

/-- 1.2: an input filter. The accepted level is absent until the first sample (R4); the candidate level is the level
opposite to it. -/
structure Filter where
  accepted : Option Bool
  run : Nat
deriving DecidableEq, Repr

/-- R19: what the decoder has judged and hands to the axis controller, one result at a time. -/
inductive DecoderResult where
  | step (direction : Direction) (inferred : Bool)
  | skip (direction : Direction)
deriving DecidableEq, Repr

/-- 1.4: a step decoder. `patternDue`, `zDue` and `results` are hand-overs of the present sample (log entry 2): a pattern change not
yet judged (R7), an accepted change of Z not yet judged (R17), and the results the axis controller has yet to take (R19,
R48). -/
structure Decoder where
  current : BitVec 3
  direction : Direction
  awaiting : Bool
  patternDue : Bool
  zDue : Option Edge
  results : List DecoderResult
deriving DecidableEq, Repr

/-! ## Axis controllers (chapter 2) -/

/-- 2.2: the configuration of an axis. -/
structure AxisConfig where
  mode : InputMode
  depth : Nat
  invert : Bool
  modulus : Nat
  indexReports : Bool
  indexCheck : Bool
  tolerance : Nat
  correction : Bool
  homeOffset : Int
  travelLimit : Option Nat
  timeLimit : Option Nat
  gate : Nat
deriving DecidableEq, Repr

/-- 2.5: the homing context. `slot` is the reply slot of the deferred HOME, its identity in the deferred table; `timer` is
the end of the homing timer when one runs. -/
structure Homing where
  qualifier : Qualifier
  total : Nat
  startTime : Word32
  timer : Option Nat
  slot : SlotNo
deriving DecidableEq, Repr

/-- R25: an arrival, held by the axis controller until the mark schedule has taken it whole (R48). -/
structure Arrival where
  position : Int
  direction : Direction
  inferred : Bool
deriving DecidableEq, Repr

/-- The state of an axis controller. `gateTimer` is the end of the gate under way; `arrival` is the arrival held for the
mark schedule; `stepped` is the position after the most recent step, which a SKIP record carries (R13). -/
structure Axis where
  state : AxisState
  position : Int
  turns : Int
  config : AxisConfig
  lastFault : Option (FaultKind × Word32)
  lastSpeed : Int
  net : Int
  gateTimer : Option Nat
  homing : Option Homing
  arrival : Option Arrival
  stepped : Int
deriving DecidableEq, Repr

/-! ## The mark schedule (chapter 3) -/

/-- 3.2: a mark. -/
structure Mark where
  tag : Word16
  position : Int
  qualifier : Qualifier
  count : Firings
  pitch : Option Int
  armed : Bool
  pulse : Option TriggerNo
  capture : Option AxisSet
  release : Option (AxisNo × Word16)
  report : Bool
deriving DecidableEq, Repr

/-! ## Trigger and capture lines (chapter 4) -/

/-- 4.1: a trigger line. `idleLevel` and `toggle` are levels, `true` for HIGH; `active` is the line state ACTIVE. -/
structure OutputLine where
  mode : OutputMode
  width : Nat
  idleLevel : Bool
  policy : Policy
  active : Bool
  pulseEnd : Option Nat
  toggle : Bool
deriving DecidableEq, Repr

/-- R80: a capture whose release claim the mark schedule has yet to take. -/
structure PendingCapture where
  edge : Edge
  snapshot : List SnapEntry
  target : AxisNo × Word16
deriving DecidableEq, Repr

/-- 4.2: a capture line. `edgeDue` is the edge its filter has handed on the present sample (R6) and `waiting` a capture
that waits for its released count (R80). -/
structure CaptureLine where
  select : EdgeSelect
  depth : Nat
  axes : AxisSet
  holdoff : Nat
  release : Option (AxisNo × Word16)
  holdoffEnd : Option Nat
  edgeDue : Option Edge
  waiting : Option PendingCapture
deriving DecidableEq, Repr

/-! ## Report filter, tally units and report queue (chapters 5 and 6) -/

/-- R95: a filter entry. Bit `n` of a set is its member `n` (10.4). -/
structure FilterEntry where
  enabled : Bool
  kinds : BitVec 6
  axes : BitVec 5
  keyValue : Word16
  keyMask : Word16
  flagsMask : BitVec 3
  flagsValue : BitVec 3
  verdict : Verdict
  tally : Option UnitNo
deriving DecidableEq, Repr

/-- R101: a tally unit; `timer` is the end of the window under way. -/
structure TallyUnit where
  mode : TallyMode
  count : Nat
  threshold : Nat
  window : Nat
  timer : Option Nat
deriving DecidableEq, Repr

/-- R110: a queue entry. -/
structure QueueEntry where
  record : Record
  seq : Word16
  sends : Nat
  state : EntryState
deriving DecidableEq, Repr

/-- R110: the report queue, oldest entry first. -/
structure ReportQueue where
  entries : List QueueEntry
  next : Word16
  lost : Loss
deriving DecidableEq, Repr

/-- The record former's filter table, the tally units and the report queue: all that a formed record can act on (R88). -/
structure Reports where
  table : Vector FilterEntry 16
  tallies : Vector TallyUnit 8
  queue : ReportQueue
deriving DecidableEq, Repr

/-! ## The host link (chapter 7) -/

/-- 7.3: the link receiver. `held` is the partial frame from the LEN byte on, `gap` the end of the gap timer when it runs,
`broken` the break flag. -/
structure Receiver where
  state : ReceiverState
  held : List Byte
  gap : Option Nat
  broken : Bool
  discarded : Nat
deriving DecidableEq, Repr

/-- R125: what a character on RXD gives: a byte, or a character error when its stop bit is sampled low. -/
inductive Character where
  | byte (b : Byte)
  | error
deriving DecidableEq, Repr

/-- R125: a character on its way: the moment of the leading edge of its start bit, and the levels sampled so far at the
middles of its bits: the start bit, the eight data bits, the stop bit. -/
structure Incoming where
  edge : Nat
  samples : List Bool
deriving DecidableEq, Repr

/-- R125: the taking of characters from RXD. `level` is the level of RXD with the moment it reached it, absent until RXD has been
seen since the reset; `char` is the character on its way; `due` is a character taken and not yet handed to the frame logic of
7.3, with the moment of its leading edge (log entries 2 and 8). -/
structure LineReceiver where
  level : Option (Bool × Nat)
  char : Option Incoming
  due : Option (Character × Nat)
deriving DecidableEq, Repr

/-- R135: the block a frame in progress came from. -/
inductive Source where
  | announce
  | reply (slot : SlotNo)
  | report
deriving DecidableEq, Repr

/-- 7.5: the frame in progress. The place of the byte now being sent follows from `started` (R125, R126). -/
structure Sending where
  source : Source
  bytes : List Byte
  started : Nat
deriving DecidableEq, Repr

/-- 7.5: the link transmitter. `tail` is the byte that a line break lets the transmitter finish (R140), with the moment
its start bit began. -/
structure Transmitter where
  frame : Option Sending
  announce : Option AnnounceCause
  tail : Option (Byte × Nat)
deriving DecidableEq, Repr

/-! ## The request handler (chapter 8) -/

/-- R142: an accepted request. -/
structure Request where
  tag : Byte
  code : Byte
  args : List Byte
  slot : SlotNo
deriving DecidableEq, Repr

/-- R146: a whole reply. -/
structure Reply where
  tag : Byte
  code : Byte
  status : Status
  results : List Byte
deriving DecidableEq, Repr

/-- R141: a reply slot. -/
inductive Slot where
  | free
  | reserved (tag code : Byte)
  | deferred (tag code : Byte)
  | completed (reply : Reply)
deriving DecidableEq, Repr

/-- R148: the kind of a deferred request. A DRAIN holds its time limit in ms and the end of its drain timer. -/
inductive DeferredKind where
  | home (axis : AxisNo)
  | drain (limit deadline : Nat)
deriving DecidableEq, Repr

/-- R148: an entry of the deferred table. -/
structure Deferred where
  kind : DeferredKind
  tag : Byte
  code : Byte
  slot : SlotNo
deriving DecidableEq, Repr

/-- The request handler. `order` lists the slots of completed replies, oldest completion first (R147). -/
structure Handler where
  queue : List Request
  executing : Option Request
  slots : Vector Slot 10
  order : List SlotNo
  table : List Deferred
  mode : HandlerMode
deriving DecidableEq, Repr

/-! ## The session controller (chapter 9) -/

/-- R160; `ackTimer` is the end of the ack timer when it runs. Times in ms. -/
structure Session where
  state : SessionState
  window : Nat
  ackTimeout : Nat
  retryLimit : Nat
  retries : Nat
  ackTimer : Option Nat
deriving DecidableEq, Repr

/-! ## The whole part -/

/-- The state of the PF-4. `pending`, `clock`, `tickedAt`, `draws` and `picks` are the model's own: the commands that wait, the
clock periods since sampling began, the value of `clock` at the last microsecond, the number of free values drawn so far, and
the number of those that chose which hand-over of a sample is taken next (log entries 1, 3 and 4). -/
structure State where
  pending : List Instr
  resetLow : Bool
  clock : Nat
  tickedAt : Nat
  draws : Nat
  picks : Nat
  timebase : Word32
  straps : BitVec 2
  sensorFilters : Vector (Vector Filter 3) 4
  captureFilters : Vector Filter 4
  decoders : Vector Decoder 4
  axes : Vector Axis 4
  marks : Vector (List Mark) 4
  outputs : Vector OutputLine 8
  captures : Vector CaptureLine 4
  reports : Reports
  line : LineReceiver
  rx : Receiver
  tx : Transmitter
  handler : Handler
  session : Session
deriving DecidableEq, Repr

/-- Why the part stops with a fault: there is no such case. The spec names no event at which the PF-4 stops, and every
command of the table has an effect or leaves the state as it is. -/
inductive Fault where
deriving DecidableEq, Repr

/-- Why a command is refused. -/
inductive Refusal where
  /-- Raised by an arm of exec for a command without a meaning yet (none is left); safe. -/
  | notModelled (mnemonic : String)
deriving DecidableEq, Repr

/-! ## Reset values -/

/-- R4. -/
def Filter.reset : Filter := { accepted := none, run := 0 }

/-- R8; the current pattern, to which the spec gives no value, is 0 (log entry 9). -/
def Decoder.reset : Decoder :=
  { current := 0, direction := .up, awaiting := true, patternDue := false, zDue := none, results := [] }

/-- 2.2. -/
def AxisConfig.reset : AxisConfig :=
  { mode := .quad, depth := 3, invert := false, modulus := 0, indexReports := false, indexCheck := false,
    tolerance := 4, correction := false, homeOffset := 0, travelLimit := none, timeLimit := none, gate := 10 }

/-- R20, R23, R40. -/
def Axis.reset : Axis :=
  { state := .disabled, position := 0, turns := 0, config := AxisConfig.reset, lastFault := none, lastSpeed := 0,
    net := 0, gateTimer := none, homing := none, arrival := none, stepped := 0 }

/-- R69, 4.1. -/
def OutputLine.reset : OutputLine :=
  { mode := .pulse, width := 10, idleLevel := false, policy := .retrigger, active := false, pulseEnd := none,
    toggle := false }

/-- R76, 4.2. -/
def CaptureLine.reset : CaptureLine :=
  { select := .none, depth := 3, axes := 0, holdoff := 0, release := none, holdoffEnd := none, edgeDue := none,
    waiting := none }

/-- R95. -/
def FilterEntry.reset : FilterEntry :=
  { enabled := false, kinds := 0, axes := 0, keyValue := 0, keyMask := 0, flagsMask := 0, flagsValue := 0,
    verdict := .deliver, tally := none }

/-- R101. -/
def TallyUnit.reset : TallyUnit := { mode := .off, count := 0, threshold := 1, window := 1, timer := none }

/-- No loss. -/
def Loss.zero : Loss := { fire := 0, capture := 0, other := 0 }

/-- R110. -/
def ReportQueue.reset : ReportQueue := { entries := [], next := 0, lost := Loss.zero }

/-- R109, R124. -/
def Reports.reset : Reports :=
  { table := Vector.replicate 16 FilterEntry.reset, tallies := Vector.replicate 8 TallyUnit.reset,
    queue := ReportQueue.reset }

/-- R125: RXD has yet to be seen, and no character is on its way. -/
def LineReceiver.reset : LineReceiver := { level := none, char := none, due := none }

/-- R128. -/
def Receiver.reset : Receiver := { state := .hunt, held := [], gap := none, broken := false, discarded := 0 }

/-- R135, with the ANNOUNCE of the reset waiting. -/
def Transmitter.reset (cause : AnnounceCause) : Transmitter := { frame := none, announce := some cause, tail := none }

/-- R141, R142, R148. -/
def Handler.reset : Handler :=
  { queue := [], executing := none, slots := Vector.replicate 10 Slot.free, order := [], table := [], mode := .taking }

/-- R160. -/
def Session.reset : Session :=
  { state := .closed, window := 4, ackTimeout := 100, retryLimit := 4, retries := 0, ackTimer := none }

/-- The machine at the end of power-on with the strap pins at 00 (log entry 5): every block at its reset values and the
ANNOUNCE with cause POWER_ON waiting (R135, R139). -/
def State.reset : State :=
  { pending := [], resetLow := false, clock := 0, tickedAt := 0, draws := 0, picks := 0, timebase := 0, straps := 0,
    sensorFilters := Vector.replicate 4 (Vector.replicate 3 Filter.reset),
    captureFilters := Vector.replicate 4 Filter.reset,
    decoders := Vector.replicate 4 Decoder.reset,
    axes := Vector.replicate 4 Axis.reset,
    marks := Vector.replicate 4 [],
    outputs := Vector.replicate 8 OutputLine.reset,
    captures := Vector.replicate 4 CaptureLine.reset,
    reports := Reports.reset,
    line := LineReceiver.reset,
    rx := Receiver.reset,
    tx := Transmitter.reset .powerOn,
    handler := Handler.reset,
    session := Session.reset }

end Sys2Proof.Machine
end

