-- ==== Sys2Proof/Machine/Ops.lean ====
section
/-!
DEFINITION. The named operations over the state: one accessor and one update for each instance of a block, the clock's
units, the draws of free values, and the guard under which every command but a reset acts.
-/

namespace Sys2Proof.Machine

/-! ## Instances of the blocks -/

/-- The axis controller of an axis. -/
def State.axis (s : State) (a : AxisNo) : Axis := s.axes.get a

/-- The axis controller of an axis replaced. -/
def State.setAxis (s : State) (a : AxisNo) (x : Axis) : State := { s with axes := s.axes.set a.val x a.isLt }

/-- The step decoder of an axis. -/
def State.decoder (s : State) (a : AxisNo) : Decoder := s.decoders.get a

/-- The step decoder of an axis replaced. -/
def State.setDecoder (s : State) (a : AxisNo) (d : Decoder) : State :=
  { s with decoders := s.decoders.set a.val d a.isLt }

/-- The list of an axis in the mark schedule, lowest position first (R43). -/
def State.markList (s : State) (a : AxisNo) : List Mark := s.marks.get a

/-- The list of an axis replaced. -/
def State.setMarkList (s : State) (a : AxisNo) (l : List Mark) : State :=
  { s with marks := s.marks.set a.val l a.isLt }

/-- A trigger line. -/
def State.output (s : State) (n : TriggerNo) : OutputLine := s.outputs.get n

/-- A trigger line replaced. -/
def State.setOutput (s : State) (n : TriggerNo) (l : OutputLine) : State :=
  { s with outputs := s.outputs.set n.val l n.isLt }

/-- A capture line. -/
def State.captureLine (s : State) (n : CaptureNo) : CaptureLine := s.captures.get n

/-- A capture line replaced. -/
def State.setCaptureLine (s : State) (n : CaptureNo) (l : CaptureLine) : State :=
  { s with captures := s.captures.set n.val l n.isLt }

/-- The three sensor filters of an axis: A, B and Z. -/
def State.sensorFilter (s : State) (a : AxisNo) : Vector Filter 3 := s.sensorFilters.get a

/-- The sensor filters of an axis replaced. -/
def State.setSensorFilter (s : State) (a : AxisNo) (f : Vector Filter 3) : State :=
  { s with sensorFilters := s.sensorFilters.set a.val f a.isLt }

/-- The capture filter of a capture line. -/
def State.captureFilter (s : State) (n : CaptureNo) : Filter := s.captureFilters.get n

/-- The capture filter of a capture line replaced. -/
def State.setCaptureFilter (s : State) (n : CaptureNo) (f : Filter) : State :=
  { s with captureFilters := s.captureFilters.set n.val f n.isLt }

/-- A tally unit. -/
def State.tallyUnit (s : State) (u : UnitNo) : TallyUnit := s.reports.tallies.get u

/-- A tally unit replaced. -/
def State.setTallyUnit (s : State) (u : UnitNo) (t : TallyUnit) : State :=
  { s with reports := { s.reports with tallies := s.reports.tallies.set u.val t u.isLt } }

/-- An entry of the filter table. -/
def State.filterEntry (s : State) (e : EntryNo) : FilterEntry := s.reports.table.get e

/-- An entry of the filter table replaced. -/
def State.setFilterEntry (s : State) (e : EntryNo) (f : FilterEntry) : State :=
  { s with reports := { s.reports with table := s.reports.table.set e.val f e.isLt } }

/-- R42: the free count, 240 less the marks on the four lists. -/
def State.freeCount (s : State) : Nat := Config.poolSize - (allAxes.map fun a => (s.markList a).length).sum

/-- 0.6: an axis that counts: FREE, SEEKING or REFERENCED (R8, R24). -/
def AxisState.counts : AxisState → Bool
  | .free => true
  | .seeking => true
  | .referenced => true
  | .disabled => false
  | .faulted => false

/-! ## Intervals (R87) -/

/-- The moment `us` microseconds from now. -/
def State.afterMicros (s : State) (us : Nat) : Nat := s.clock + us * Config.periodsPerMicro

/-- The moment `ms` milliseconds from now. -/
def State.afterMillis (s : State) (ms : Nat) : Nat := s.clock + ms * Config.periodsPerMilli

/-- A timer that runs has come to its end. -/
def State.reached (s : State) (timer : Option Nat) : Bool :=
  match timer with
  | none => false
  | some t => t ≤ s.clock

/-! ## Arithmetic on positions (0.8) -/

/-- A position of a linear axis, or a turn count, wrapped into the signed 32-bit range. -/
def wrap32 (x : Int) : Int := Int.bmod x 4294967296

/-- A position reduced for an axis of modulus `m`: modulo `m` on a modular axis, modulo 2^32 on a linear one. -/
def reducePosition (m : Nat) (x : Int) : Int := if m = 0 then wrap32 x else x % m

/-- A position of an axis of modulus `m` (R27, R29, R44): every signed 32-bit value on a linear axis. -/
def positionInRange (m : Nat) (x : Int) : Bool := m == 0 || (0 ≤ x && x < m)

/-! ## Free values -/

/-- Take the elements of a list in an order that free values choose; a list of one element needs no draw. -/
def shuffle {α : Type} : Nat → Nat → List α → List α
  | 0, _, l => l
  | _, _, [] => []
  | _, _, [x] => [x]
  | fuel + 1, n, l =>
    match l[Config.pickOrder n % l.length]? with
    | none => l
    | some x => x :: shuffle fuel (n + 1) (l.eraseIdx (Config.pickOrder n % l.length))

/-! ## Commands -/

/-- What a command does to the part. While RESETN is held low every block is held at its reset values, sampling is stopped
and nothing is received or sent (R1, R69, R125, R142), so no command but a reset acts (log entry 6). -/
def whenRunning (f : State → State) (s : State) : Host.Outcome State Fault Refusal :=
  .next (if s.resetLow then s else f s)

end Sys2Proof.Machine
end

