-- ==== Sys2Proof/Machine/Operands.lean ====
section
/-!
DEFINITION. The codes of the enumerations (10.4) and the arguments of requests: request codes, layouts, the walk of the
length check (R172, R173) and the reading of fields (10.1).
-/

namespace Sys2Proof.Machine

/-! ## Codes of enumerations (10.4) -/

def AxisState.code : AxisState → Byte
  | .disabled => 0 | .free => 1 | .seeking => 2 | .referenced => 3 | .faulted => 4

def FaultKind.code : FaultKind → Byte
  | .quadJump => 1 | .hallJump => 2 | .hallInvalid => 3 | .indexDrift => 4

def StateCause.code : StateCause → Byte
  | .request => 0 | .index => 1 | .fault => 2 | .homeFailed => 3 | .linkBreak => 4

def InputMode.code : InputMode → Byte
  | .quad => 0 | .quadIndex => 1 | .hall3 => 2

def Direction.code : Direction → Byte
  | .up => 0 | .down => 1

def Qualifier.code : Qualifier → Byte
  | .up => 0 | .down => 1 | .either => 2

/-- On/off options. -/
def onOff (b : Bool) : Byte := if b then 1 else 0

def Edge.code : Edge → Byte
  | .rising => 1 | .falling => 2

def SnapStatus.code : SnapStatus → Byte
  | .invalid => 0 | .unreferenced => 1 | .referenced => 2

def Verdict.code : Verdict → Byte
  | .deliver => 0 | .discard => 1

def TallyMode.code : TallyMode → Byte
  | .off => 0 | .once => 1 | .restart => 2 | .window => 3

def TallyReason.code : TallyReason → Byte
  | .threshold => 1 | .window => 2

def SessionState.code : SessionState → Byte
  | .closed => 0 | .opened => 1 | .stalled => 2

def AnnounceCause.code : AnnounceCause → Byte
  | .powerOn => 1 | .resetPin => 2 | .resetRequest => 3 | .linkBreak => 4

def Status.code : Status → Byte
  | .ok => 0 | .queueFull => 1 | .unknownRequest => 2 | .badLength => 3 | .badArgument => 4 | .wrongState => 5
  | .busy => 6 | .unsupported => 7 | .poolFull => 8 | .noSuchRequest => 9 | .aborted => 10 | .interrupted => 11
  | .noIndex => 12 | .timedOut => 13 | .faulted => 14

def inputModeOf (b : Byte) : Option InputMode :=
  if b = 0 then some .quad else if b = 1 then some .quadIndex else if b = 2 then some .hall3 else none

def qualifierOf (b : Byte) : Option Qualifier :=
  if b = 0 then some .up else if b = 1 then some .down else if b = 2 then some .either else none

def onOffOf (b : Byte) : Option Bool :=
  if b = 0 then some false else if b = 1 then some true else none

def outputModeOf (b : Byte) : Option OutputMode :=
  if b = 0 then some .pulse else if b = 1 then some .toggle else none

def policyOf (b : Byte) : Option Policy :=
  if b = 0 then some .retrigger else if b = 1 then some .refuse else none

def edgeSelectOf (b : Byte) : Option EdgeSelect :=
  if b = 0 then some .none else if b = 1 then some .rising else if b = 2 then some .falling
  else if b = 3 then some .both else none

def verdictOf (b : Byte) : Option Verdict :=
  if b = 0 then some .deliver else if b = 1 then some .discard else none

def tallyModeOf (b : Byte) : Option TallyMode :=
  if b = 0 then some .off else if b = 1 then some .once else if b = 2 then some .restart
  else if b = 3 then some .window else none

/-- The remove selector: which arm states a removal admits, `none` for ANY (R60). -/
def selectorOf (b : Byte) : Option (Option Bool) :=
  if b = 0 then some none else if b = 1 then some (some false) else if b = 2 then some (some true) else none

/-- An axis number 0 to 3. -/
def axisOf (b : Byte) : Option AxisNo := if h : b.toNat < 4 then some ⟨b.toNat, h⟩ else none

/-- A trigger line number 0 to 7. -/
def triggerOf (b : Byte) : Option TriggerNo := if h : b.toNat < 8 then some ⟨b.toNat, h⟩ else none

/-- A capture line number 0 to 3. -/
def captureOf (b : Byte) : Option CaptureNo := if h : b.toNat < 4 then some ⟨b.toNat, h⟩ else none

/-- A filter entry number 0 to 15. -/
def entryOf (b : Byte) : Option EntryNo := if h : b.toNat < 16 then some ⟨b.toNat, h⟩ else none

/-- A tally unit number 0 to 7. -/
def unitOf (b : Byte) : Option UnitNo := if h : b.toNat < 8 then some ⟨b.toNat, h⟩ else none

/-- R175: a mark's or a capture line's axis set; a bit for a member that is not listed is out of range. -/
def axisSetOf (b : Byte) : Option AxisSet := if b.toNat < 16 then some (b.truncate 4) else none

/-! ## Reading the arguments -/

/-- The byte at place `i` of the arguments. -/
def arg8 (l : List Byte) (i : Nat) : Byte := l.getD i 0

/-- The 16-bit field at place `i`. -/
def arg16 (l : List Byte) (i : Nat) : Word16 := arg8 l i ++ arg8 l (i + 1)

/-- The 32-bit field at place `i`. -/
def arg32 (l : List Byte) (i : Nat) : Word32 := arg16 l i ++ arg16 l (i + 2)

/-- The signed 32-bit field at place `i`. -/
def argInt (l : List Byte) (i : Nat) : Int := (arg32 l i).toInt

/-! ## Requests and their layouts (10.5, 10.6) -/

/-- The requests (8.6). -/
inductive RequestName where
  | identify | status | time | configureAxis | enableAxis | disableAxis | clearFault | setPosition | queryAxis | home
  | addMarks | removeMarks | releaseMarks | listMarks | configureOutput | pulseOutput | configureCapture
  | setFilter | readFilter | configureTally | readTally | openSession | closeSession | drain | abort | resetDevice
deriving DecidableEq, Repr

/-- The request codes (10.5). -/
def RequestName.code : RequestName → Byte
  | .identify => 0x01 | .status => 0x02 | .time => 0x03
  | .configureAxis => 0x10 | .enableAxis => 0x11 | .disableAxis => 0x12 | .clearFault => 0x13
  | .setPosition => 0x14 | .queryAxis => 0x15 | .home => 0x16
  | .addMarks => 0x20 | .removeMarks => 0x21 | .releaseMarks => 0x22 | .listMarks => 0x23
  | .configureOutput => 0x30 | .pulseOutput => 0x31 | .configureCapture => 0x32
  | .setFilter => 0x40 | .readFilter => 0x41 | .configureTally => 0x42 | .readTally => 0x43
  | .openSession => 0x50 | .closeSession => 0x51 | .drain => 0x52
  | .abort => 0x60 | .resetDevice => 0x61

/-- Every request. -/
def allRequests : List RequestName :=
  [.identify, .status, .time, .configureAxis, .enableAxis, .disableAxis, .clearFault, .setPosition, .queryAxis, .home,
   .addMarks, .removeMarks, .releaseMarks, .listMarks, .configureOutput, .pulseOutput, .configureCapture,
   .setFilter, .readFilter, .configureTally, .readTally, .openSession, .closeSession, .drain, .abort, .resetDevice]

/-- The request a code names, if any (R146). -/
def requestOf (code : Byte) : Option RequestName := allRequests.find? fun n => n.code == code

/-- One part of a layout (R172): a field of a fixed size, or a presence byte and, when it is 1, a field. -/
inductive Item where
  | fixed (size : Nat)
  | optional (size : Nat)
deriving DecidableEq, Repr

/-- The layout of a request's arguments: parts in order, or parts, a count byte and that many elements. -/
inductive Layout where
  | plain (items : List Item)
  | counted (head element : List Item)
deriving DecidableEq, Repr

/-- 10.6: the mark entry; its count presence is a presence byte (R173). -/
def markLayout : List Item :=
  [.fixed 7, .optional 2, .optional 4, .optional 1, .optional 1, .optional 3, .fixed 1]

/-- 10.5: the layouts. -/
def RequestName.layout : RequestName → Layout
  | .identify => .plain []
  | .status => .plain [.fixed 1]
  | .time => .plain []
  | .configureAxis => .plain [.fixed 24]
  | .enableAxis => .plain [.fixed 5]
  | .disableAxis => .plain [.fixed 1]
  | .clearFault => .plain [.fixed 1]
  | .setPosition => .plain [.fixed 6]
  | .queryAxis => .plain [.fixed 1]
  | .home => .plain [.fixed 2]
  | .addMarks => .counted [.fixed 2] markLayout
  | .removeMarks => .plain [.fixed 6]
  | .releaseMarks => .plain [.fixed 5]
  | .listMarks => .plain [.fixed 3]
  | .configureOutput => .plain [.fixed 6]
  | .pulseOutput => .plain [.fixed 1]
  | .configureCapture => .plain [.fixed 6, .optional 3]
  | .setFilter => .plain [.fixed 11, .optional 1]
  | .readFilter => .plain [.fixed 1]
  | .configureTally => .plain [.fixed 8]
  | .readTally => .plain [.fixed 2]
  | .openSession => .plain [.fixed 5]
  | .closeSession => .plain []
  | .drain => .plain [.fixed 2]
  | .abort => .plain [.fixed 1]
  | .resetDevice => .plain []

/-- Where a walk stands: at the bytes still to walk, or stopped with the status of its reply (R172, R173). -/
inductive Walk where
  | going (rest : List Byte)
  | stopped (status : Status)
deriving DecidableEq, Repr

/-- One part walked. -/
def walkItem : Item → List Byte → Walk
  | .fixed n, l => if l.length < n then .stopped .badLength else .going (l.drop n)
  | .optional _, [] => .stopped .badLength
  | .optional n, p :: l =>
    if p = 0 then .going l
    else if p = 1 then (if l.length < n then .stopped .badLength else .going (l.drop n))
    else .stopped .badArgument

/-- Parts walked in order. -/
def walkItems : List Item → List Byte → Walk
  | [], l => .going l
  | i :: is, l =>
    match walkItem i l with
    | .going rest => walkItems is rest
    | .stopped st => .stopped st

/-- A number of elements walked in turn. -/
def walkElements (element : List Item) : Nat → List Byte → Walk
  | 0, l => .going l
  | n + 1, l =>
    match walkItems element l with
    | .going rest => walkElements element n rest
    | .stopped st => .stopped st

/-- The whole walk. -/
def Layout.walk : Layout → List Byte → Walk
  | .plain items, l => walkItems items l
  | .counted head element, l =>
    match walkItems head l with
    | .stopped st => .stopped st
    | .going [] => .stopped .badLength
    | .going (n :: rest) => walkElements element n.toNat rest

/-- R172, R173: the length check; `none` when the arguments are of the length the layout calls for. -/
def RequestName.lengthFault (n : RequestName) (args : List Byte) : Option Status :=
  match n.layout.walk args with
  | .stopped st => some st
  | .going [] => none
  | .going (_ :: _) => some .badLength

end Sys2Proof.Machine
end

