-- ==== Sys2Proof/Machine/Flags.lean ====
section
/-!
DEFINITION. The flags and the matching view of a record (5.2), and the match of a record against a filter entry (R96, R97).
-/

namespace Sys2Proof.Machine

/-- The flags of a FIRE record as the line carries them: SKIPPED, FINAL, OUTPUT_BUSY in bits 0, 1, 2 (10.4). -/
def fireFlags (skipped final outputBusy : Bool) : BitVec 3 :=
  (if skipped then 1 else 0) ||| (if final then 2 else 0) ||| (if outputBusy then 4 else 0)

/-- 5.2: what the filter reads of a record. `axis` is absent for NO_AXIS; `kind` is the bit number of the kind in a kind
set. -/
structure View where
  kind : Nat
  axis : Option AxisNo
  key : Word16
  flags : BitVec 3
deriving DecidableEq, Repr

/-- 5.2: the matching view; TALLY and GAP records have none (R94). -/
def RecordBody.view : RecordBody → Option View
  | .fire r => some ⟨0, some r.axis, r.tag, fireFlags r.skipped r.final r.outputBusy⟩
  | .capture line _ _ _ => some ⟨1, none, BitVec.ofNat 16 line.val, 0⟩
  | .index a _ _ _ => some ⟨2, some a, 0, 0⟩
  | .skip a _ _ => some ⟨3, some a, 0, 0⟩
  | .fault a k _ => some ⟨4, some a, k.code.zeroExtend 16, 0⟩
  | .state a _ new _ => some ⟨5, some a, new.code.zeroExtend 16, 0⟩
  | .tally _ _ _ => none
  | .gap _ => none

/-- The bit of a filter axis set for a record's axis: NO_AXIS is bit 4 (10.4). -/
def View.axisBit (v : View) : Nat :=
  match v.axis with
  | some a => a.val
  | none => 4

/-- R96: the record matches the entry. -/
def FilterEntry.matchesView (e : FilterEntry) (v : View) : Bool :=
  e.enabled && e.kinds.getLsbD v.kind && e.axes.getLsbD v.axisBit
    && (v.key ^^^ e.keyValue) &&& e.keyMask == 0
    && (v.flags ^^^ e.flagsValue) &&& e.flagsMask == 0

/-- R97: the verdict and the tally unit for a record, from the lowest entry that it matches. -/
def judgeRecord (table : Vector FilterEntry 16) (v : View) : Verdict × Option UnitNo :=
  match table.toList.find? (fun e => e.matchesView v) with
  | some e => (e.verdict, e.tally)
  | none => (.deliver, none)

end Sys2Proof.Machine
end

