-- ==== Sys2Proof/Machine/Records.lean ====
section
/-!
DEFINITION. The report queue and its operations (chapter 6), the tally units (5.4), the record former (R88), the forming of
a record by a block, and the bytes of a record (10.7).
-/

namespace Sys2Proof.Machine

/-! ## The report queue -/

/-- R111: the oldest sequence number. -/
def ReportQueue.oldest (q : ReportQueue) : Word16 :=
  match q.entries with
  | [] => q.next
  | e :: _ => e.seq

/-- R111: the place a sequence number would have in the queue. -/
def ReportQueue.place (q : ReportQueue) (s : Word16) : Nat := (s - q.oldest).toNat

/-- R117: the entry that a sequence number names, by the test of R111. -/
def ReportQueue.lookup (q : ReportQueue) (s : Word16) : Option QueueEntry := q.entries[q.place s]?

/-- R123: the number of OUTSTANDING entries. -/
def ReportQueue.outstanding (q : ReportQueue) : Nat := q.entries.countP fun e => e.state == .outstanding

/-- A PENDING entry is held. -/
def ReportQueue.hasPending (q : ReportQueue) : Bool := q.entries.any fun e => e.state == .pending

/-- R112: the record joins the queue. -/
def ReportQueue.append (r : Record) (q : ReportQueue) : ReportQueue :=
  { q with entries := q.entries ++ [{ record := r, seq := q.next, sends := 0, state := .pending }], next := q.next + 1 }

/-- A 16-bit saturating count raised by 1. -/
def raise16 (n : Nat) : Nat := if n < 65535 then n + 1 else n

/-- R113: a lost record counted in its class. -/
def Loss.count (l : Loss) (b : RecordBody) : Loss :=
  match b with
  | .fire _ => { l with fire := raise16 l.fire }
  | .capture _ _ _ _ => { l with capture := raise16 l.capture }
  | .index _ _ _ _ => { l with other := raise16 l.other }
  | .skip _ _ _ => { l with other := raise16 l.other }
  | .fault _ _ _ => { l with other := raise16 l.other }
  | .state _ _ _ _ => { l with other := raise16 l.other }
  | .tally _ _ _ => { l with other := raise16 l.other }
  | .gap _ => l

/-- R112, R113: a record offered for admission is admitted, or lost and counted. -/
def ReportQueue.offer (r : Record) (q : ReportQueue) : ReportQueue :=
  if q.entries.length < Config.queueSize then q.append r else { q with lost := q.lost.count r.body }

/-- R115: the GAP admission at the end of an operation that has removed `removed` entries. -/
def ReportQueue.admitGap (stamp : Word32) (removed : Nat) (q : ReportQueue) : ReportQueue :=
  if removed = 0 ∨ q.lost = Loss.zero then q
  else { q.append { stamp := stamp, body := .gap q.lost } with lost := Loss.zero }

/-- The oldest `n` entries removed, with the GAP admission (R115, R119, R121). -/
def ReportQueue.removeOldest (stamp : Word32) (n : Nat) (q : ReportQueue) : ReportQueue :=
  { q with entries := q.entries.drop n }.admitGap stamp (min n q.entries.length)

/-- R119: remove through `s`, for a number that names an entry. -/
def ReportQueue.removeThrough (stamp : Word32) (s : Word16) (q : ReportQueue) : ReportQueue :=
  q.removeOldest stamp (q.place s + 1)

/-- R119: remove before `s`, for a number that names an entry. -/
def ReportQueue.removeBefore (stamp : Word32) (s : Word16) (q : ReportQueue) : ReportQueue :=
  q.removeOldest stamp (q.place s)

/-- R121: discard all. -/
def ReportQueue.discardAll (stamp : Word32) (q : ReportQueue) : ReportQueue :=
  q.removeOldest stamp q.entries.length

/-- R120: revert. -/
def ReportQueue.revert (q : ReportQueue) : ReportQueue :=
  { q with entries := q.entries.map fun e => { e with state := .pending } }

/-- R118: the oldest PENDING entry becomes OUTSTANDING with its send count raised; the entry as marked is the copy. -/
def markFirst : List QueueEntry → Option (QueueEntry × List QueueEntry)
  | [] => none
  | e :: es =>
    if e.state = .pending then
      let e' := { e with state := EntryState.outstanding, sends := if e.sends < 255 then e.sends + 1 else e.sends }
      some (e', e' :: es)
    else
      match markFirst es with
      | none => none
      | some (c, es') => some (c, e :: es')

/-- R118: mark sent, with the copy handed to the link transmitter; nothing when no entry is PENDING. -/
def ReportQueue.markSent (q : ReportQueue) : Option (QueueEntry × ReportQueue) :=
  match markFirst q.entries with
  | none => none
  | some (c, es) => some (c, { q with entries := es })

/-- R122: an operation that found `before` and left `after` reports the empty event. -/
def emptied (before after : ReportQueue) : Bool := !before.entries.isEmpty && after.entries.isEmpty

/-! ## Tally units -/

/-- R101: a 32-bit saturating count raised by 1. -/
def raise32 (n : Nat) : Nat := if n < 4294967295 then n + 1 else n

/-- R102 to R104: an increment; the count of the TALLY record it forms, if it forms one. -/
def TallyUnit.increment (t : TallyUnit) : TallyUnit × Option Nat :=
  match t.mode with
  | .off => (t, none)
  | .once =>
    if raise32 t.count = t.threshold then ({ t with count := raise32 t.count, mode := .off }, some (raise32 t.count))
    else ({ t with count := raise32 t.count }, none)
  | .restart =>
    if raise32 t.count = t.threshold then ({ t with count := 0 }, some t.threshold)
    else ({ t with count := raise32 t.count }, none)
  | .window => ({ t with count := raise32 t.count }, none)

/-! ## The record former -/

/-- R88, step 4: the named tally unit takes one increment and hands on any TALLY record (R102, R106). -/
def Reports.tallyOne (stamp : Word32) (u : UnitNo) (r : Reports) : Reports :=
  { r with
    tallies := r.tallies.set u.val (r.tallies.get u).increment.1 u.isLt
    queue :=
      match (r.tallies.get u).increment.2 with
      | none => r.queue
      | some n => r.queue.offer { stamp := stamp, body := .tally u .threshold n } }

/-- R88: the record former stamps a record, judges it, hands it to the report queue and gives the tally unit its
increment. A TALLY or a GAP record does not pass through it (R94). -/
def Reports.form (stamp : Word32) (b : RecordBody) (r : Reports) : Reports :=
  match b.view with
  | none => r
  | some v =>
    let delivered :=
      match (judgeRecord r.table v).1 with
      | .deliver => { r with queue := r.queue.offer { stamp := stamp, body := b } }
      | .discard => r
    match (judgeRecord r.table v).2 with
    | none => delivered
    | some u => delivered.tallyOne stamp u

/-- A block hands a record to the record former, where it takes the timebase value as its stamp (R85). -/
def State.formRecord (s : State) (b : RecordBody) : State := { s with reports := s.reports.form s.timebase b }

/-- The report queue. -/
def State.reportQueue (s : State) : ReportQueue := s.reports.queue

/-- The report queue replaced. -/
def State.setQueue (s : State) (q : ReportQueue) : State := { s with reports := { s.reports with queue := q } }

/-! ## Bytes of a record (10.7) -/

/-- A snapshot entry: axis, status, position. -/
def SnapEntry.bytes (e : SnapEntry) : List Byte := byte8 e.axis.val :: e.status.code :: int32 e.position

/-- A snapshot: its count byte and its entries. -/
def snapshotBytes (l : List SnapEntry) : List Byte := byte8 l.length :: l.flatMap SnapEntry.bytes

/-- An optional field: its presence byte and its bytes (10.1). -/
def optionalBytes (f : Option (List Byte)) : List Byte :=
  match f with
  | none => [0]
  | some l => 1 :: l

/-- Firings left: 65 535 for ENDLESS (10.1). -/
def Firings.leftBytes : Firings → List Byte
  | .counted n => nat16 n
  | .endless => nat16 65535

/-- The record kind and the fields in order; the stamp stands between them (10.7). -/
def RecordBody.kindCode : RecordBody → Byte
  | .fire _ => 1
  | .capture _ _ _ _ => 2
  | .index _ _ _ _ => 3
  | .skip _ _ _ => 4
  | .fault _ _ _ => 5
  | .state _ _ _ _ => 6
  | .tally _ _ _ => 7
  | .gap _ => 8

/-- The fields of a record's kind, in order (10.7). -/
def RecordBody.fieldBytes : RecordBody → List Byte
  | .fire r =>
    byte8 r.axis.val :: bytes16 r.tag ++ int32 r.position
      ++ [r.direction.code, (fireFlags r.skipped r.final r.outputBusy).zeroExtend 8]
      ++ r.left.leftBytes ++ optionalBytes (r.released.map fun n => [byte8 n])
      ++ snapshotBytes (r.snapshot.getD [])
  | .capture line edge snapshot released =>
    [byte8 line.val, edge.code] ++ optionalBytes (released.map fun n => [byte8 n]) ++ snapshotBytes snapshot
  | .index a p drift corrected => byte8 a.val :: int32 p ++ optionalBytes (drift.map int32) ++ [onOff corrected]
  | .skip a p d => byte8 a.val :: int32 p ++ [d.code]
  | .fault a k p => [byte8 a.val, k.code] ++ int32 p
  | .state a old new cause => [byte8 a.val, old.code, new.code, cause.code]
  | .tally u reason n => [byte8 u.val, reason.code] ++ nat32 n
  | .gap l => nat16 l.fire ++ nat16 l.capture ++ nat16 l.other

/-- 10.7: a record as a REPORT frame carries it. -/
def Record.bytes (r : Record) : List Byte := r.body.kindCode :: bytes32 r.stamp ++ r.body.fieldBytes

/-- 10.2: the body of the REPORT frame built from an entry's copy (R138). -/
def QueueEntry.reportBody (e : QueueEntry) : List Byte := bytes16 e.seq ++ [byte8 e.sends] ++ e.record.bytes

end Sys2Proof.Machine
end

