-- ==== Sys2Proof/Machine/Handler.lean ====
section
/-!
DEFINITION. The request handler's own operations: acceptance (R143, R144), execution and its end (R145 to R147), the
deferred table (R148, R149) and the report queue's empty event (R122, R153).
-/

namespace Sys2Proof.Machine

/-! ## Slots and replies -/

/-- A free slot, if there is one. Which of several is taken the host cannot see; the model takes the lowest (log entry 13). -/
def Handler.freeSlot (h : Handler) : Option SlotNo := allSlots.find? fun i => h.slots.get i == .free

/-- A slot's content replaced. -/
def Handler.setSlot (h : Handler) (i : SlotNo) (x : Slot) : Handler :=
  { h with slots := h.slots.set i.val x i.isLt }

/-- R147: a reply is completed in a slot and takes the next place in the completion order. -/
def Handler.complete (h : Handler) (i : SlotNo) (r : Reply) : Handler :=
  { h.setSlot i (.completed r) with order := h.order ++ [i] }

/-- R145: with no request executing and the mode TAKING, the oldest queued request becomes the executing request. -/
def Handler.startNext (h : Handler) : Handler :=
  match h.mode, h.executing, h.queue with
  | .taking, none, r :: rest => { h with executing := some r, queue := rest }
  | _, _, _ => h

/-- R145: the execution of the executing request ends; the next may then start (log entry 15). -/
def Handler.endExecution (h : Handler) : Handler := { h with executing := none }

/-- R144, R145: the start of execution of the oldest queued request is due. -/
def Handler.startDue (h : Handler) : Bool := h.mode == .taking && h.executing.isNone && !h.queue.isEmpty

/-- The request handler replaced. -/
def State.setHandler (s : State) (h : Handler) : State := { s with handler := h }

/-- R147: the executing request is answered. -/
def answer (r : Request) (status : Status) (results : List Byte) (s : State) : State :=
  s.setHandler (s.handler.complete r.slot { tag := r.tag, code := r.code, status := status, results := results }).endExecution

/-! ## Acceptance -/

/-- R132: the discarded-frame count rises by 1. -/
def State.countDiscard (s : State) : State := { s with rx := { s.rx with discarded := raise16 s.rx.discarded } }

/-- R143: an accepted request joins the end of the request queue, its slot RESERVED. -/
def Handler.accept (h : Handler) (r : Request) : Handler :=
  { h.setSlot r.slot (.reserved r.tag r.code) with queue := h.queue ++ [r] }

/-- R143, R144: the handler takes a REQUEST for which slot `i` is free, or answers it QUEUE_FULL at once. -/
def Handler.meet (h : Handler) (i : SlotNo) (tag code : Byte) (args : List Byte) : Handler :=
  if h.queue.length < Config.requestQueueSize then
    (h.accept { tag := tag, code := code, args := args, slot := i }).startNext
  else h.complete i { tag := tag, code := code, status := .queueFull, results := [] }

/-- R143, R144: a REQUEST handed by the link receiver. When it finds the queue full and a start of execution due, either may be
taken first, and a free value decides (log entry 15). -/
def acceptRequest (tag code : Byte) (args : List Byte) (s : State) : State :=
  match s.handler.mode with
  | .resetPending => s
  | .taking =>
    match s.handler.freeSlot with
    | none => s.countDiscard
    | some i =>
      if s.handler.startDue ∧ Config.requestQueueSize ≤ s.handler.queue.length then
        { s with draws := s.draws + 1 }.setHandler
          ((if Config.startFirst s.draws then s.handler.startNext else s.handler).meet i tag code args)
      else s.setHandler (s.handler.meet i tag code args)

/-! ## The deferred table -/

/-- R148: an entry joins the deferred table, its slot DEFERRED. -/
def Handler.deferEntry (h : Handler) (d : Deferred) : Handler :=
  { h.setSlot d.slot (.deferred d.tag d.code) with table := h.table ++ [d] }

/-- R149: an entry leaves the deferred table. -/
def Handler.dropEntry (h : Handler) (i : SlotNo) : Handler :=
  { h with table := h.table.filter fun x => x.slot != i }

/-- R148: the executing request is deferred. -/
def deferRequest (r : Request) (kind : DeferredKind) (s : State) : State :=
  s.setHandler (s.handler.deferEntry { kind := kind, tag := r.tag, code := r.code, slot := r.slot }).endExecution

/-- R149: the deferred request in a slot ends; an ending that finds no entry has no effect. -/
def endDeferred (i : SlotNo) (status : Status) (results : List Byte) (s : State) : State :=
  match s.handler.table.find? (fun d => d.slot == i) with
  | none => s
  | some d =>
    s.setHandler
      ((s.handler.dropEntry i).complete i
        { tag := d.tag, code := d.code, status := status, results := results })

/-- The HOME deferred on an axis (R30, R148). -/
def Handler.homeOn (h : Handler) (a : AxisNo) : Option Deferred := h.table.find? fun d => d.kind == .home a

/-- A deferred entry is a DRAIN. -/
def Deferred.isDrain (d : Deferred) : Bool :=
  match d.kind with
  | .home _ => false
  | .drain _ _ => true

/-- The deferred DRAIN (R148). -/
def Handler.drain (h : Handler) : Option Deferred := h.table.find? Deferred.isDrain

/-- The end of a DRAIN's drain timer. -/
def Deferred.deadline (d : Deferred) : Option Nat :=
  match d.kind with
  | .home _ => none
  | .drain _ t => some t

/-- The queue count as one byte (10.5). -/
def State.queueCountByte (s : State) : Byte := byte8 s.reportQueue.entries.length

/-- R153: the deferred DRAIN, if one stands, ends with the queue count as it stands. -/
def endDrain (status : Status) (s : State) : State :=
  match s.handler.drain with
  | none => s
  | some d => endDeferred d.slot status [s.queueCountByte] s

/-- R122, R153: the empty event reaches the handler. When the drain timer has run out at the same time either may be taken
first, and a free value decides (log entry 12). -/
def emptyEvent (s : State) : State :=
  match s.handler.drain with
  | none => s
  | some d =>
    if s.reached d.deadline then
      endDrain (if Config.emptyFirst s.draws then .ok else .timedOut) { s with draws := s.draws + 1 }
    else endDrain .ok s

/-- The queue after one of its operations, with the empty event when the operation has emptied it (R122). -/
def afterRemoval (q : ReportQueue) (s : State) : State :=
  if emptied s.reportQueue q then emptyEvent (s.setQueue q) else s.setQueue q

/-! ## Execution of a request -/

/-- R145: the state with the oldest queued request in execution, when its start is due. -/
def State.startRequest (s : State) : State := s.setHandler s.handler.startNext

/-- R145, R146: the executing request, when it is the one named, is judged by the handler and handed to its owning block.
A request refused BAD_ARGUMENT for a presence byte carries the free count if it is an ADD_MARKS (10.5.3, log entry 14). -/
def executeAs (n : RequestName) (act : Request → State → State) (s : State) : State :=
  match s.startRequest.handler.executing with
  | none => s
  | some r =>
    if requestOf r.code = some n then
      match n.lengthFault r.args with
      | some st =>
        answer r st (if n = .addMarks ∧ st = .badArgument then [byte8 s.freeCount] else []) s.startRequest
      | none => act r s.startRequest
    else s

/-- R146, check 3: a request that names an axis, handed to that axis's controller. -/
def executeOnAxis (n : RequestName) (act : AxisNo → Request → State → State) (s : State) : State :=
  executeAs n
    (fun r s => match axisOf (arg8 r.args 0) with
      | none => answer r .badArgument [] s
      | some a => act a r s) s

end Sys2Proof.Machine
end

