-- ==== Sys2Proof/Machine/Axes.lean ====
section
/-!
DEFINITION. The axis controllers (chapter 2): changes of state, faults, homing, steps, the speed gate, snapshots (R79).
-/

namespace Sys2Proof.Machine

/-! ## Shared operations -/

/-- The four bytes of a homing step total (10.5.2). The spec states no value for a total that four bytes cannot hold: a
free value then stands there (log entry 10). -/
def stepTotalBytes (n : Nat) : List Byte :=
  if n < 4294967296 then nat32 n else bytes32 (Config.wideStepTotal n)

/-- R20, R40: the speed gate stopped. -/
def Axis.stopGate (x : Axis) : Axis := { x with gateTimer := none, net := 0, lastSpeed := 0 }

/-- R40: the speed gate started at `now`. -/
def Axis.startGate (now : Nat) (x : Axis) : Axis :=
  { x with gateTimer := some (now + x.config.gate * Config.periodsPerMilli), net := 0 }

/-- R21: a change of axis state forms a STATE record; `x` is the axis as the change leaves it. -/
def State.changeState (s : State) (a : AxisNo) (x : Axis) (cause : StateCause) : State :=
  (s.setAxis a x).formRecord (.state a (s.axis a).state x.state cause)

/-- R31 to R34: homing ends in state `new`; the homing timer stops with the context, a STATE record is formed and the
deferred HOME is answered. -/
def State.endHoming (s : State) (a : AxisNo) (h : Homing) (new : AxisState) (cause : StateCause) (status : Status)
    (results : List Byte) : State :=
  endDeferred h.slot status results (s.changeState a { s.axis a with state := new, homing := none } cause)

/-- R37, R38: an axis faults: last fault, FAULT record, FAULTED with its STATE record, the speed gate stopped, and a HOME
under way answered FAULTED with the step total. -/
def takeFault (a : AxisNo) (kind : FaultKind) (s : State) : State :=
  let x := s.axis a
  let s1 := s.setAxis a { x with lastFault := some (kind, s.timebase) }
  let s2 := s1.formRecord (.fault a kind x.position)
  let s3 := s2.changeState a { s2.axis a with state := .faulted, homing := none }.stopGate .fault
  match x.homing with
  | none => s3
  | some h => endDeferred h.slot .faulted (stepTotalBytes h.total) s3

/-- R31: the travel limit, judged once the results of the sample have been applied. -/
def judgeTravel (a : AxisNo) (s : State) : State :=
  match (s.axis a).homing, (s.axis a).config.travelLimit with
  | some h, some limit =>
    if limit ≤ h.total then s.endHoming a h .free .homeFailed .noIndex (stepTotalBytes h.total) else s
  | _, _ => s

/-! ## Steps -/

/-- The signed count of a step. -/
def Direction.sign : Direction → Int
  | .up => 1
  | .down => -1

/-- R24: the position and the turn count after a step. -/
def moveOne (m : Nat) (d : Direction) (position turns : Int) : Int × Int :=
  if m = 0 then (wrap32 (position + d.sign), turns)
  else
    match d with
    | .up => if position = m - 1 then (0, wrap32 (turns + 1)) else (position + 1, turns)
    | .down => if position = 0 then (m - 1, wrap32 (turns - 1)) else (position - 1, turns)

/-- R24, R25, R31, R40: the axis after a step. -/
def Axis.stepped1 (d : Direction) (inferred : Bool) (x : Axis) : Axis :=
  let p := moveOne x.config.modulus d x.position x.turns
  { x with
    position := p.1, turns := p.2, net := x.net + d.sign, stepped := p.1
    homing := x.homing.map fun h => { h with total := h.total + 1 }
    arrival := if x.state = .referenced then some { position := p.1, direction := d, inferred := inferred } else x.arrival }

/-- R24: the axis controller takes the step its decoder hands. It takes no result while the mark schedule has yet to take
its arrival (R48). The travel limit waits for an index edge of the same sample (R31). -/
def takeStep (a : AxisNo) (s : State) : State :=
  let d := s.decoder a
  match d.results with
  | .step dir inferred :: rest =>
    if (s.axis a).arrival.isSome then s
    else
      let s1 := s.setDecoder a { d with results := rest }
      if (s.axis a).state.counts then
        let s2 := s1.setAxis a ((s.axis a).stepped1 dir inferred)
        if d.zDue.isNone then judgeTravel a s2 else s2
      else s1
  | _ => s

/-- STEP. -/
def execStep (a : AxisNo) (s : State) : Host.Outcome State Fault Refusal := whenRunning (takeStep a) s

/-- R13: the skip notice of a double step forms one SKIP record, after the arrivals of its steps have been taken (R56,
log entry 20). -/
def takeSkip (a : AxisNo) (s : State) : State :=
  let d := s.decoder a
  match d.results with
  | .skip dir :: rest =>
    if (s.axis a).arrival.isSome then s
    else (s.setDecoder a { d with results := rest }).formRecord (.skip a (s.axis a).stepped dir)
  | _ => s

/-- SKIP_NOTICE. -/
def execSkipNotice (a : AxisNo) (s : State) : Host.Outcome State Fault Refusal := whenRunning (takeSkip a) s

/-! ## Index arrivals -/

/-- R36: the index check acts. -/
def AxisConfig.checkActs (c : AxisConfig) : Bool := c.indexCheck && c.modulus != 0 && c.mode == .quadIndex

/-- R36: the drift of position `p`: congruent to `p - H` modulo M, above -M/2 and at or below M/2. -/
def AxisConfig.drift (c : AxisConfig) (p : Int) : Int :=
  let r := (p - c.homeOffset) % c.modulus
  if 2 * r ≤ c.modulus then r else r - c.modulus

/-- R36: the turn count after the jump of `-r` from `p`. -/
def correctedTurns (m : Nat) (p r turns : Int) : Int :=
  if p - r < 0 then wrap32 (turns - 1) else if p - r ≥ m then wrap32 (turns + 1) else turns

/-- R32: the qualifier of a HOME, or of a mark (R49), admits a direction. -/
def Qualifier.admits (q : Qualifier) (d : Direction) : Bool :=
  match q with
  | .either => true
  | .up => d == .up
  | .down => d == .down

/-- An INDEX record, formed when index reports are on. -/
def State.reportIndex (s : State) (a : AxisNo) (drift : Option Int) (corrected : Bool) : State :=
  if (s.axis a).config.indexReports then s.formRecord (.index a (s.axis a).position drift corrected) else s

/-- R32: the completion of homing by an index arrival that the qualifier admits. -/
def completeHoming (a : AxisNo) (h : Homing) (s : State) : State :=
  let x := s.axis a
  (s.setAxis a { x with position := x.config.homeOffset, turns := 0 }).endHoming a h .referenced .index .ok
    (int32 x.position ++ stepTotalBytes h.total)

/-- R36, R37: the index check on a REFERENCED axis. -/
def checkIndex (a : AxisNo) (s : State) : State :=
  let x := s.axis a
  let r := x.config.drift x.position
  if r.natAbs ≤ x.config.tolerance then
    let s1 := s.reportIndex a (some r) x.config.correction
    if x.config.correction then
      s1.setAxis a { s1.axis a with
        position := x.config.homeOffset, turns := correctedTurns x.config.modulus x.position r x.turns }
    else s1
  else takeFault a .indexDrift (s.reportIndex a (some r) false)

/-- R32, R35, R36: what the axis controller does with an index arrival in direction `d`. -/
def useIndex (a : AxisNo) (d : Direction) (s : State) : State :=
  let x := s.axis a
  match x.state with
  | .free => s.reportIndex a none false
  | .referenced => if x.config.checkActs then checkIndex a s else s.reportIndex a none false
  | .seeking =>
    match x.homing with
    | none => s
    | some h => if h.qualifier.admits d then completeHoming a h s else s.reportIndex a none false
  | .disabled => s
  | .faulted => s

/-- R17: the Z edge that gives an index arrival in a direction. -/
def indexEdge (e : Edge) (d : Direction) : Bool :=
  match e, d with
  | .rising, .up => true
  | .falling, .down => true
  | .rising, .down => false
  | .falling, .up => false

/-- R17, R18: the index edge of the sample is judged once the pattern of the sample has been judged and its results have
been taken; then the travel limit is judged (R31). -/
def takeIndex (a : AxisNo) (s : State) : State :=
  let d := s.decoder a
  match d.zDue with
  | none => s
  | some e =>
    if d.patternDue ∨ d.results ≠ [] ∨ (s.axis a).arrival.isSome then s
    else
      let s1 := s.setDecoder a { d with zDue := none }
      if (s.axis a).config.mode = .quadIndex ∧ (s.axis a).state.counts then
        judgeTravel a (if indexEdge e d.direction then useIndex a d.direction s1 else s1)
      else s1

/-- INDEX_ARRIVAL. -/
def execIndexArrival (a : AxisNo) (s : State) : Host.Outcome State Fault Refusal := whenRunning (takeIndex a) s

/-! ## Timers -/

/-- R40: a gate expiry; the next gate follows on the one that ends (log entry 26). -/
def takeGateExpiry (a : AxisNo) (s : State) : State :=
  let x := s.axis a
  match x.gateTimer with
  | none => s
  | some t =>
    if t ≤ s.clock then
      s.setAxis a { x with lastSpeed := x.net, net := 0, gateTimer := some (t + x.config.gate * Config.periodsPerMilli) }
    else s

/-- SPEED_GATE_EXPIRY. -/
def execSpeedGateExpiry (a : AxisNo) (s : State) : Host.Outcome State Fault Refusal := whenRunning (takeGateExpiry a) s

/-- R33: the homing timer of a SEEKING axis expires. -/
def takeHomingExpiry (a : AxisNo) (s : State) : State :=
  match (s.axis a).homing with
  | none => s
  | some h =>
    if s.reached h.timer then s.endHoming a h .free .homeFailed .timedOut (stepTotalBytes h.total) else s

/-- HOMING_TIMER_EXPIRY. -/
def execHomingTimerExpiry (a : AxisNo) (s : State) : Host.Outcome State Fault Refusal :=
  whenRunning (takeHomingExpiry a) s

/-! ## Snapshots -/

/-- R79: the status of an axis state in a snapshot. -/
def AxisState.snapStatus : AxisState → SnapStatus
  | .referenced => .referenced
  | .free => .unreferenced
  | .seeking => .unreferenced
  | .disabled => .invalid
  | .faulted => .invalid

/-- R52, R79: one reading. `arriving` is the axis whose arrival the mark schedule is evaluating, with the position that
arrival carries. -/
def State.snapEntry (s : State) (arriving : Option (AxisNo × Int)) (a : AxisNo) : SnapEntry :=
  let x := s.axis a
  let p :=
    match arriving with
    | none => x.position
    | some (b, q) => if b = a then q else x.position
  { axis := a, status := x.state.snapStatus, position := if x.state.snapStatus = .invalid then 0 else p }

/-- R79: a snapshot of a set of axes, in ascending order. -/
def State.snapshot (s : State) (set : AxisSet) (arriving : Option (AxisNo × Int)) : List SnapEntry :=
  (allAxes.filter fun a => set.getLsbD a.val).map (s.snapEntry arriving)

end Sys2Proof.Machine
end

