-- ==== Sys2Proof/Machine/Outputs.lean ====
section
/-!
DEFINITION. The output unit (4.1): pulse claims, pulse expiry, configuration, and the level of a trigger pin.
-/

namespace Sys2Proof.Machine

/-- 4.1: the active level, opposite to the idle level. -/
def OutputLine.activeLevel (l : OutputLine) : Bool := !l.idleLevel

/-- R70, R71, R73: a pulse claim on a line whose pulse would end at `stop`; the second part is true when it is taken. -/
def OutputLine.claim (stop : Nat) (l : OutputLine) : OutputLine × Bool :=
  match l.mode with
  | .toggle => ({ l with toggle := !l.toggle, active := (!l.toggle) != l.idleLevel }, true)
  | .pulse =>
    if l.active then
      match l.policy with
      | .retrigger => ({ l with pulseEnd := some stop }, true)
      | .refuse => (l, false)
    else ({ l with active := true, pulseEnd := some stop }, true)

/-- A pulse claim on a trigger line, and whether it is taken (4.1.1). -/
def State.claimPulse (s : State) (n : TriggerNo) : State × Bool :=
  let l := s.output n
  let c := l.claim (s.afterMicros l.width)
  (s.setOutput n c.1, c.2)

/-- R69: the level of a trigger pin; every pin is low while RESETN is held low. -/
def State.triggerPin (s : State) (n : TriggerNo) : Bool :=
  if s.resetLow then false
  else
    match (s.output n).mode with
    | .pulse => if (s.output n).active then (s.output n).activeLevel else (s.output n).idleLevel
    | .toggle => (s.output n).toggle

/-- R72: the pulse of a line expires when its end time is reached; otherwise the expiry has no effect. -/
def takePulseExpiry (n : TriggerNo) (s : State) : State :=
  let l := s.output n
  if l.mode = .pulse ∧ l.active ∧ s.reached l.pulseEnd then s.setOutput n { l with active := false, pulseEnd := none }
  else s

/-- PULSE_EXPIRY. -/
def execPulseExpiry (n : TriggerNo) (s : State) : Host.Outcome State Fault Refusal := whenRunning (takePulseExpiry n) s

/-- R75: the new configuration, taken in two stages: the line IDLE at the new idle level, then the new fields held. -/
def configuredOutput (mode : OutputMode) (width : Nat) (idle : Bool) (policy : Policy) : OutputLine :=
  { mode := mode, width := width, idleLevel := idle, policy := policy, active := false, pulseEnd := none, toggle := idle }

/-- R75: CONFIGURE_OUTPUT judged and taken. -/
def configureOutput (r : Request) (s : State) : State :=
  match triggerOf (arg8 r.args 0), outputModeOf (arg8 r.args 1), onOffOf (arg8 r.args 4), policyOf (arg8 r.args 5) with
  | some n, some mode, some idle, some policy =>
    if (arg16 r.args 2).toNat = 0 then answer r .badArgument [] s
    else answer r .ok [] (s.setOutput n (configuredOutput mode (arg16 r.args 2).toNat idle policy))
  | _, _, _, _ => answer r .badArgument [] s

/-- CONFIGURE_OUTPUT. -/
def execConfigureOutput (s : State) : Host.Outcome State Fault Refusal :=
  whenRunning (executeAs .configureOutput configureOutput) s

/-- R74: PULSE_OUTPUT is a pulse claim, answered OK when it is taken and BUSY when it is refused. -/
def pulseOutput (r : Request) (s : State) : State :=
  match triggerOf (arg8 r.args 0) with
  | none => answer r .badArgument [] s
  | some n => answer r (if (s.claimPulse n).2 then .ok else .busy) [] (s.claimPulse n).1

/-- PULSE_OUTPUT. -/
def execPulseOutput (s : State) : Host.Outcome State Fault Refusal := whenRunning (executeAs .pulseOutput pulseOutput) s

end Sys2Proof.Machine
end

