-- ==== Sys2Proof/Machine/Marks.lean ====
section
/-!
DEFINITION. The mark schedule (chapter 3): ordered lists, releases, the evaluation of an arrival and the firing of a mark.
-/

namespace Sys2Proof.Machine

/-! ## Ordered lists (R43) -/

/-- R43: a mark enters after every mark at its position and before every mark at a greater one. -/
def insertMark (m : Mark) : List Mark → List Mark
  | [] => [m]
  | x :: xs => if x.position ≤ m.position then x :: insertMark m xs else m :: x :: xs

/-- R46: marks enter in the order given. -/
def insertMarks (ms : List Mark) (l : List Mark) : List Mark := ms.foldl (fun l m => insertMark m l) l

/-- The marks of a list that stand at a position, in list order. -/
def marksAt (p : Int) (l : List Mark) : List Mark := l.filter fun m => m.position == p

/-- A list without its `n`-th mark at position `p`. -/
def removeNthAt (p : Int) : Nat → List Mark → List Mark
  | _, [] => []
  | n, x :: xs =>
    if x.position = p then
      match n with
      | 0 => xs
      | k + 1 => x :: removeNthAt p k xs
    else x :: removeNthAt p n xs

/-! ## Matching and releases (R57) -/

/-- R57: the mark's tag agrees with a tag in every bit that a mask selects. -/
def Mark.matchesTag (m : Mark) (tag mask : Word16) : Bool := (m.tag ^^^ tag) &&& mask == 0

/-- R57: a HELD mark that a claim matches. -/
def Mark.releasedBy (m : Mark) (tag mask : Word16) : Bool := !m.armed && m.matchesTag tag mask

/-- R57: the list with every HELD matching mark ARMED. -/
def armMatching (tag mask : Word16) (l : List Mark) : List Mark :=
  l.map fun m => if m.releasedBy tag mask then { m with armed := true } else m

/-- R57: the released count. -/
def releasedCount (tag mask : Word16) (l : List Mark) : Nat := l.countP fun m => m.releasedBy tag mask

/-- R57: the schedule takes a release claim. -/
def State.release (s : State) (target : AxisNo) (tag mask : Word16) : State :=
  s.setMarkList target (armMatching tag mask (s.markList target))

/-- The mask that selects every tag bit, so that one tag is matched exactly (R57). -/
def exactMask : Word16 := 0xFFFF

/-! ## Firing (R50 to R55) -/

/-- R55: what becomes of a fired mark on an axis of modulus `modulus`: nothing for a last firing, else the mark as it
enters the list again. The count and the position change and nothing else: a mark come down to count 1 keeps its pitch, which
is shown no more (R45, log entry 28). -/
def Mark.afterFiring (m : Mark) (modulus : Nat) : Option Mark :=
  let moved := reducePosition modulus (m.position + m.pitch.getD 0)
  match m.count with
  | .endless => some { m with position := moved }
  | .counted n => if n ≤ 1 then none else some { m with position := moved, count := .counted (n - 1) }

/-- R54: the firings left after a firing. -/
def Mark.leftAfter (m : Mark) : Firings :=
  match m.count with
  | .endless => .endless
  | .counted n => .counted (n - 1)

/-- R54: the firing is the mark's last. -/
def Mark.lastFiring (m : Mark) : Bool :=
  match m.count with
  | .endless => false
  | .counted n => n ≤ 1

/-- R51: the pulse action; the second part is OUTPUT_BUSY. -/
def State.pulseAction (s : State) (pulse : Option TriggerNo) : State × Bool :=
  match pulse with
  | none => (s, false)
  | some n => ((s.claimPulse n).1, !(s.claimPulse n).2)

/-- R53: the release action; the second part is the released count, when there is a release action. -/
def State.releaseAction (s : State) (release : Option (AxisNo × Word16)) : State × Option Nat :=
  match release with
  | none => (s, none)
  | some (t, tag) => (s.release t tag exactMask, some (releasedCount tag exactMask (s.markList t)))

/-- R54: the FIRE record of a mark, formed when its report flag is set or it has a capture action. -/
def State.fireRecord (s : State) (a : AxisNo) (arr : Arrival) (m : Mark) (busy : Bool) (released : Option Nat)
    (snapshot : Option (List SnapEntry)) : State :=
  if m.report ∨ m.capture.isSome then
    s.formRecord (.fire
      { axis := a, tag := m.tag, position := arr.position, direction := arr.direction, skipped := arr.inferred,
        final := m.lastFiring, outputBusy := busy, left := m.leftAfter, released := released, snapshot := snapshot })
  else s

/-- R55: the `n`-th mark at the arrival's position leaves its place and, unless its last firing has taken place, enters
the list again. -/
def State.reposition (s : State) (a : AxisNo) (p : Int) (n : Nat) (m : Mark) : State :=
  let l := removeNthAt p n (s.markList a)
  s.setMarkList a
    (match m.afterFiring (s.axis a).config.modulus with
     | none => l
     | some m' => insertMark m' l)

/-- R50: a mark fires: pulse, capture, release, record, and the count and position change, in that order. `n` is its place
among the marks at the position. -/
def State.fireMark (s : State) (a : AxisNo) (arr : Arrival) (n : Nat) (m : Mark) : State :=
  let pulsed := s.pulseAction m.pulse
  let snapshot := m.capture.map fun set => pulsed.1.snapshot set (some (a, arr.position))
  let released := pulsed.1.releaseAction m.release
  (released.1.fireRecord a arr m pulsed.2 released.2 snapshot).reposition a arr.position n m

/-- R49: the candidates are considered one at a time in list order. The list of flags says, for each mark that stood at the
position when the arrival was taken, whether it was ARMED then; `passed` counts the marks already left in place. -/
def considerMarks (a : AxisNo) (arr : Arrival) : List Bool → Nat → State → State
  | [], _, s => s
  | candidate :: rest, passed, s =>
    match (marksAt arr.position (s.markList a))[passed]? with
    | none => s
    | some m =>
      if candidate ∧ m.qualifier.admits arr.direction then
        considerMarks a arr rest passed (s.fireMark a arr passed m)
      else considerMarks a arr rest (passed + 1) s

/-- R48, R49: the schedule takes the arrival that the axis controller holds, whole. -/
def takeArrival (a : AxisNo) (s : State) : State :=
  match (s.axis a).arrival with
  | none => s
  | some arr =>
    considerMarks a arr ((marksAt arr.position (s.markList a)).map fun m => m.armed) 0
      (s.setAxis a { s.axis a with arrival := none })

/-- ARRIVAL_EVALUATION. -/
def execArrivalEvaluation (a : AxisNo) (s : State) : Host.Outcome State Fault Refusal := whenRunning (takeArrival a) s

end Sys2Proof.Machine
end

