-- ==== Sys2Proof/Machine/Captures.lean ====
section
/-!
DEFINITION. The capture unit (4.2): edges, captures, release claims, holdoff, configuration.
-/

namespace Sys2Proof.Machine

/-- R77: the configuration selects the edge. -/
def EdgeSelect.takes (x : EdgeSelect) (e : Edge) : Bool :=
  match x, e with
  | .none, _ => false
  | .rising, .rising => true
  | .rising, .falling => false
  | .falling, .falling => true
  | .falling, .rising => false
  | .both, _ => true

/-- R78: a capture: the snapshot, the holdoff, the release claim if there is one, and otherwise the record at once. -/
def makeCapture (n : CaptureNo) (e : Edge) (s : State) : State :=
  let l := s.captureLine n
  let snapshot := s.snapshot l.axes none
  let held := { l with
    edgeDue := none
    holdoffEnd := if l.holdoff = 0 then l.holdoffEnd else some (s.afterMicros l.holdoff) }
  match l.release with
  | some target => s.setCaptureLine n { held with waiting := some { edge := e, snapshot := snapshot, target := target } }
  | none => (s.setCaptureLine n held).formRecord (.capture n e snapshot none)

/-- R77: the capture unit takes the edge that the line's filter has handed. The capture of an earlier edge is complete
before the next edge is taken (R78). -/
def takeCaptureEdge (n : CaptureNo) (s : State) : State :=
  let l := s.captureLine n
  match l.edgeDue with
  | none => s
  | some e =>
    if l.waiting.isSome then s
    else if l.select.takes e ∧ l.holdoffEnd.isNone then makeCapture n e s
    else s.setCaptureLine n { l with edgeDue := none }

/-- CAPTURE_EDGE. -/
def execCaptureEdge (n : CaptureNo) (s : State) : Host.Outcome State Fault Refusal := whenRunning (takeCaptureEdge n) s

/-- R80, R81: the mark schedule takes the line's release claim, and with the released count the capture unit hands on its
CAPTURE record. -/
def takeCaptureClaim (n : CaptureNo) (s : State) : State :=
  let l := s.captureLine n
  match l.waiting with
  | none => s
  | some w =>
    ((s.setCaptureLine n { l with waiting := none }).release w.target.1 w.target.2 exactMask).formRecord
      (.capture n w.edge w.snapshot (some (releasedCount w.target.2 exactMask (s.markList w.target.1))))

/-- CAPTURE_RELEASE_CLAIM. -/
def execCaptureReleaseClaim (n : CaptureNo) (s : State) : Host.Outcome State Fault Refusal :=
  whenRunning (takeCaptureClaim n) s

/-- R82: the holdoff of a line expires. -/
def takeHoldoffExpiry (n : CaptureNo) (s : State) : State :=
  if s.reached (s.captureLine n).holdoffEnd then s.setCaptureLine n { s.captureLine n with holdoffEnd := none } else s

/-- HOLDOFF_EXPIRY. -/
def execHoldoffExpiry (n : CaptureNo) (s : State) : Host.Outcome State Fault Refusal :=
  whenRunning (takeHoldoffExpiry n) s

/-- R3: a new depth is taken by a filter: its run begins again and its accepted level is kept (log entry 16). -/
def Filter.newDepth (f : Filter) : Filter := { f with run := 0 }

/-- R83: the release target of CONFIGURE_CAPTURE: absent, or a target; `none` when it names an axis that does not exist. -/
def releaseTargetOf (args : List Byte) : Option (Option (AxisNo × Word16)) :=
  if arg8 args 6 = 0 then some none
  else
    match axisOf (arg8 args 7) with
    | none => none
    | some t => some (some (t, arg16 args 8))

/-- R83: CONFIGURE_CAPTURE judged and taken. A capture under way keeps the configuration it began with. -/
def configureCapture (r : Request) (s : State) : State :=
  match captureOf (arg8 r.args 0), edgeSelectOf (arg8 r.args 1), axisSetOf (arg8 r.args 3), releaseTargetOf r.args with
  | some n, some select, some axes, some target =>
    if 63 < (arg8 r.args 2).toNat then answer r .badArgument [] s
    else
      answer r .ok []
        ((s.setCaptureLine n
          { s.captureLine n with
            select := select, depth := (arg8 r.args 2).toNat, axes := axes, holdoff := (arg16 r.args 4).toNat,
            release := target, holdoffEnd := none }).setCaptureFilter n (s.captureFilter n).newDepth)
  | _, _, _, _ => answer r .badArgument [] s

/-- CONFIGURE_CAPTURE. -/
def execConfigureCapture (s : State) : Host.Outcome State Fault Refusal :=
  whenRunning (executeAs .configureCapture configureCapture) s

end Sys2Proof.Machine
end

