-- ==== Sys2Proof/Machine/Line.lean ====
section
/-!
DEFINITION. The line (7.1): the rates, the levels of a character on TXD, and the taking of characters from the levels of RXD.
-/

namespace Sys2Proof.Machine

/-- R126: clock periods of a bit at the rate formed: 20 MHz over 114 943, 465 116, 909 091 and 2 000 000 baud. -/
def bitPeriods (straps : BitVec 2) : Nat :=
  match straps.toNat with
  | 0 => 174
  | 1 => 43
  | 2 => 22
  | _ => 10

/-- R125: a character is ten bit times. -/
def bytePeriods (straps : BitVec 2) : Nat := 10 * bitPeriods straps

/-- R125: the level of TXD `since` clock periods into a character. -/
def characterLevel (bit : Nat) (b : Byte) (since : Nat) : Bool :=
  if since < bit then false else if since < 9 * bit then b.getLsbD (since / bit - 1) else true

/-! ## The receiver of characters (R125) -/

/-- R125: clock periods from the leading edge of a start bit to the middle of bit `k` of its character. The middle of a bit of
43 periods is taken at its 21st (log entry 30). -/
def bitMiddle (bit k : Nat) : Nat := k * bit + bit / 2

/-- R125: the byte of eight data bits, the least significant first. -/
def byteOfBits (l : List Bool) : Byte := BitVec.ofNat 8 (l.foldr (fun b n => b.toNat + 2 * n) 0)

/-- R125: the next bit of a character sampled at its middle. A start bit found high was noise, a stop bit found high makes a
byte and one found low a character error. -/
def LineReceiver.sampleBit (v : Bool) (c : Incoming) (x : LineReceiver) : LineReceiver :=
  if c.samples = [] ∧ v = true then { x with char := none }
  else if c.samples.length < 9 then { x with char := some { c with samples := c.samples ++ [v] } }
  else { x with char := none, due := some (if v then .byte (byteOfBits c.samples.tail) else .error, c.edge) }

/-- The level of RXD and the moment it reached it. A level seen for the first time since the reset counts as just reached
(R125). -/
def LineReceiver.reach (now : Nat) (v : Bool) (x : LineReceiver) : Bool × Nat :=
  match x.level with
  | none => (v, now)
  | some (l, since) => if l = v then (l, since) else (v, now)

/-- R125: RXD shows a level after a high one: `v` low is then the leading edge of a start bit. -/
def LineReceiver.wasHigh (x : LineReceiver) : Bool := (x.level.map fun l => l.1) == some true

/-- R125, R133: RXD shows level `v` at moment `now`. No character is taken while the break flag is set. -/
def LineReceiver.follow (broken : Bool) (bit now : Nat) (v : Bool) (x : LineReceiver) : LineReceiver :=
  let y := { x with level := some (x.reach now v) }
  if broken then y
  else
    match x.char with
    | some c => if c.edge + bitMiddle bit c.samples.length ≤ now then y.sampleBit v c else y
    | none => if x.wasHigh ∧ v = false then { y with char := some { edge := now, samples := [] } } else y

/-- A clock period at RXD, with the level given or, without one, the level as it was. -/
def LineReceiver.hear (broken : Bool) (bit now : Nat) (rxd : Option Bool) (x : LineReceiver) : LineReceiver :=
  match rxd, x.level with
  | some v, _ => x.follow broken bit now v
  | none, some (v, _) => x.follow broken bit now v
  | none, none => x

/-- The receiver of characters replaced. -/
def State.setLine (s : State) (x : LineReceiver) : State := { s with line := x }

/-- RXD at the present moment. -/
def State.followRxd (rxd : Option Bool) (s : State) : State :=
  s.setLine (s.line.hear s.rx.broken (bitPeriods s.straps) s.clock rxd)

/-- The character due has been handed on. -/
def State.dropDue (s : State) : State := s.setLine { s.line with due := none }

/-- A character is handed to the frame logic: the one that is due, or, while RXD has not been seen, the one a command names
(log entry 8). -/
def State.comes (s : State) (c : Character) : Bool := s.line.level.isNone || (s.line.due.map fun d => d.1) == some c

/-- R133, R134: RXD has stood at a level for 1 ms; while RXD has not been seen, the command says so (log entry 8). -/
def State.rxdHeld (s : State) (v : Bool) : Bool :=
  match s.line.level with
  | none => true
  | some (l, since) => l == v && since + Config.periodsPerMilli ≤ s.clock

/-- R130: a start bit came before moment `stop`: that of a character on its way, or of one that is due. -/
def State.startedBefore (s : State) (stop : Nat) : Bool :=
  s.line.char.any (fun c => c.edge < stop) || s.line.due.any (fun d => d.2 < stop)

end Sys2Proof.Machine
end

