-- ==== Sys2Proof/Machine/Resets.lean ====
section
/-!
DEFINITION. Power-on, the reset pin and the reset requested by RESET_DEVICE (R68, R109, R124, R126, R139, R142, R157).
-/

namespace Sys2Proof.Machine

/-- R125: after a reset RXD counts as having just reached the level it shows. Without a level it has not been seen (log entry
30). -/
def LineReceiver.showing (now : Nat) (rxd : Option Bool) : LineReceiver :=
  { LineReceiver.reset with level := rxd.map fun v => (v, now) }

/-- Every block at its reset values, the straps and the level of RXD taken from the pins, and the ANNOUNCE of the reset waiting
(R125, R126, R139). The waiting commands and the counts of free values drawn are the model's own and stand. -/
def restart (cause : AnnounceCause) (pins : ResetPins) (s : State) : State :=
  { State.reset with
    pending := s.pending, draws := s.draws, picks := s.picks, straps := pins.straps
    line := LineReceiver.showing State.reset.clock pins.rxd, tx := Transmitter.reset cause }

/-- POWER_ON. -/
def execPowerOn (pins : ResetPins) (s : State) : Host.Outcome State Fault Refusal := .next (restart .powerOn pins s)

/-- RESETN driven low: sampling stops, every trigger pin is low and TXD high, the frame in progress is cut and every request
ends without a reply (R1, R69, R125, R140, R142). The blocks take their reset values at once (log entry 6); no ANNOUNCE is
formed before the release, and the straps are not sampled and RXD is not seen. -/
def holdReset (s : State) : State :=
  if s.resetLow then s
  else
    { restart .resetPin { straps := s.straps, rxd := none } s with
      resetLow := true, tx := { Transmitter.reset .resetPin with announce := none } }

/-- RESET_PIN. -/
def execResetPin (s : State) : Host.Outcome State Fault Refusal := .next (holdReset s)

/-- The release of RESETN (R126, R139); without a low level before it there is no release. -/
def releaseReset (pins : ResetPins) (s : State) : State := if s.resetLow then restart .resetPin pins s else s

/-- RESET_PIN_RELEASE. -/
def execResetPinRelease (pins : ResetPins) (s : State) : Host.Outcome State Fault Refusal :=
  .next (releaseReset pins s)

end Sys2Proof.Machine
end

