-- ==== Sys2Proof/Machine/Sessions.lean ====
section
/-!
DEFINITION. The session controller (chapter 9): host heard, ACK and NAK, the ack timer, opening and closing, and the session
requests with DRAIN.
-/

namespace Sys2Proof.Machine

/-- The session controller replaced. -/
def State.setSession (s : State) (x : Session) : State := { s with session := x }

/-- The ack timer started afresh for the ack timeout (R163). -/
def State.freshAckTimer (s : State) : Option Nat := some (s.afterMillis s.session.ackTimeout)

/-- R166: the host heard event of a good frame. -/
def hostHeard (s : State) : State :=
  if s.session.state = .stalled then s.setSession { s.session with state := .opened, retries := 0 } else s

/-- R164, R165: the test of validity: the number names an entry held that has left the PF-4 at least once. -/
def ReportQueue.acknowledges (q : ReportQueue) (n : Word16) : Bool :=
  match q.lookup n with
  | none => false
  | some e => 1 ≤ e.sends

/-- R163: the ack timer after a removal that leaves `q`: started afresh while entries are OUTSTANDING, else stopped. -/
def State.ackTimerAfter (s : State) (q : ReportQueue) : Option Nat :=
  if q.outstanding = 0 then none else s.freshAckTimer

/-- R164: an ACK. -/
def takeAck (n : Word16) (s : State) : State :=
  if s.session.state = .opened ∧ s.reportQueue.acknowledges n then
    let q := s.reportQueue.removeThrough s.timebase n
    afterRemoval q (s.setSession { s.session with retries := 0, ackTimer := s.ackTimerAfter q })
  else s

/-- R165: a NAK. -/
def takeNak (n : Word16) (s : State) : State :=
  if s.session.state = .opened ∧ s.reportQueue.acknowledges n then
    let q := (s.reportQueue.removeBefore s.timebase n).revert
    afterRemoval q (s.setSession { s.session with retries := 0, ackTimer := none })
  else s

/-- R162: the session controller allows a REPORT frame. -/
def State.reportAllowed (s : State) : Bool :=
  s.session.state == .opened && s.reportQueue.outstanding < s.session.window && s.reportQueue.hasPending

/-- R163: the completion of a REPORT frame. -/
def reportCompleted (s : State) : State :=
  if s.reportQueue.outstanding = 0 then s else s.setSession { s.session with ackTimer := s.freshAckTimer }

/-- R167: the ack timer expires. -/
def takeAckExpiry (s : State) : State :=
  if s.session.state = .opened ∧ s.reached s.session.ackTimer then
    (s.setQueue s.reportQueue.revert).setSession
      { s.session with
        retries := s.session.retries + 1
        ackTimer := none
        state := if s.session.retries + 1 ≤ s.session.retryLimit then .opened else .stalled }
  else s

/-- ACK_TIMER_EXPIRY. -/
def execAckTimerExpiry (s : State) : Host.Outcome State Fault Refusal := whenRunning takeAckExpiry s

/-- R169, R170: the session closes: revert, ack timer stopped, retry count 0, CLOSED. A session already CLOSED is left as it
is. -/
def closeSessionState (s : State) : State :=
  if s.session.state = .closed then s
  else (s.setQueue s.reportQueue.revert).setSession { s.session with state := .closed, retries := 0, ackTimer := none }

/-- The oldest sequence number and the queue count, as the replies carry them (R123). -/
def State.occupancyBytes (s : State) : List Byte := bytes16 s.reportQueue.oldest ++ [s.queueCountByte]

/-- R161: a parameter given as 0 takes its default. -/
def orDefault (n default : Nat) : Nat := if n = 0 then default else n

/-- R161: the session parameters set and the session OPEN. -/
def openedSession (window timeout retry : Nat) (x : Session) : Session :=
  { x with
    state := .opened, window := orDefault window 4, ackTimeout := orDefault timeout 100, retryLimit := orDefault retry 4,
    retries := 0, ackTimer := none }

/-- R161: the ranges of the parameters, where 0 stands for the default. -/
def sessionInRange (window timeout retry : Nat) : Bool :=
  window ≤ 16 && (timeout == 0 || (10 ≤ timeout && timeout ≤ 2000)) && retry ≤ 15

/-- R161: OPEN_SESSION judged and taken. -/
def openSession (r : Request) (s : State) : State :=
  let window := (arg8 r.args 0).toNat
  let timeout := (arg16 r.args 1).toNat
  let retry := (arg8 r.args 3).toNat
  if s.session.state ≠ .closed then answer r .wrongState [] s
  else
    match onOffOf (arg8 r.args 4) with
    | none => answer r .badArgument [] s
    | some fresh =>
      if sessionInRange window timeout retry then
        let opened := s.setSession (openedSession window timeout retry s.session)
        let started :=
          if fresh then afterRemoval (s.reportQueue.discardAll s.timebase) opened else opened
        answer r .ok
          (started.occupancyBytes ++ [if fresh then byte8 s.reportQueue.entries.length else 0]) started
      else answer r .badArgument [] s

/-- OPEN_SESSION. -/
def execOpenSession (s : State) : Host.Outcome State Fault Refusal := whenRunning (executeAs .openSession openSession) s

/-- R169: CLOSE_SESSION; a deferred DRAIN ends INTERRUPTED before its reply. -/
def closeSession (r : Request) (s : State) : State :=
  if s.session.state = .closed then answer r .ok s.occupancyBytes s
  else
    let closed := endDrain .interrupted (closeSessionState s)
    answer r .ok closed.occupancyBytes closed

/-- CLOSE_SESSION. -/
def execCloseSession (s : State) : Host.Outcome State Fault Refusal :=
  whenRunning (executeAs .closeSession closeSession) s

/-- R152: DRAIN. -/
def drain (r : Request) (s : State) : State :=
  let limit := (arg16 r.args 0).toNat
  if limit = 0 then answer r .badArgument [] s
  else if s.session.state = .closed then answer r .wrongState [] s
  else if s.handler.drain.isSome then answer r .busy [] s
  else if s.reportQueue.entries.isEmpty then answer r .ok [0] s
  else deferRequest r (.drain limit (s.afterMillis limit)) s

/-- DRAIN. -/
def execDrain (s : State) : Host.Outcome State Fault Refusal := whenRunning (executeAs .drain drain) s

/-- R153: the drain timer expires. -/
def takeDrainExpiry (s : State) : State :=
  match s.handler.drain with
  | none => s
  | some d => if s.reached d.deadline then endDrain .timedOut s else s

/-- DRAIN_TIMER_EXPIRY. -/
def execDrainTimerExpiry (s : State) : Host.Outcome State Fault Refusal := whenRunning takeDrainExpiry s

end Sys2Proof.Machine
end

