-- ==== Sys2Proof/Machine/Link.lean ====
section
/-!
DEFINITION. The host link (chapter 7): the receiver with its replay of held bytes, line break, the transmit arbiter, frames
and their completion, and the level of the TXD pin.
-/

namespace Sys2Proof.Machine

/-! ## The receiver -/

/-- What becomes of a byte taken into the receiver (R128). -/
inductive Taken where
  /-- No frame ends. -/
  | more
  /-- A good frame. -/
  | good (f : Frame)
  /-- The frame is discarded; its held bytes from the LEN byte on are judged again (R129). -/
  | bad (held : List Byte)
deriving DecidableEq, Repr

/-- R128: the receiver back in HUNT with an empty partial frame and its gap timer stopped. -/
def Receiver.toHunt (x : Receiver) : Receiver := { x with state := .hunt, held := [], gap := none }

/-- R128: a byte held, with the gap timer started afresh at `now`. -/
def Receiver.hold (x : Receiver) (now : Nat) (state : ReceiverState) (held : List Byte) : Receiver :=
  { x with state := state, held := held, gap := some (now + Config.gapLimit) }

/-- The LEN of the frame in progress. -/
def Receiver.len (x : Receiver) : Nat := (x.held.headD 0).toNat

/-- The good frame whose bytes from the LEN byte on are `held`: the KIND byte and the body (7.2). -/
def frameOf (held : List Byte) : Frame :=
  { kind := held.getD 1 0, body := (held.drop 2).take ((held.headD 0).toNat - 1) }

/-- R128: the receiver takes a byte. -/
def Receiver.take (x : Receiver) (now : Nat) (b : Byte) : Receiver × Taken :=
  match x.state with
  | .hunt => if b = syncByte then (x.hold now .length [], .more) else (x, .more)
  | .length => if lenInRange b then (x.hold now .body [b], .more) else (x.toHunt, .bad [b])
  | .body =>
    (x.hold now (if x.held.length = x.len then .check else .body) (x.held ++ [b]), .more)
  | .check =>
    if x.held.length = x.len + 1 then (x.hold now .check (x.held ++ [b]), .more)
    else if crcAgrees (x.held.headD 0) (x.held.tail ++ [b]) then (x.toHunt, .good (frameOf (x.held ++ [b])))
    else (x.toHunt, .bad (x.held ++ [b]))

/-- The receiver replaced. -/
def State.setRx (s : State) (x : Receiver) : State := { s with rx := x }

/-- The 16-bit sequence number of an ACK or NAK body (10.2). -/
def seqOf (body : List Byte) : Word16 := arg16 body 0

/-- R131: a good frame: host heard, and then the block its kind names, or the discard for its kind or length. -/
def routeFrame (f : Frame) (s : State) : State :=
  let heard := hostHeard s
  if wrongKind f then heard.countDiscard
  else if f.kind = kindRequest then acceptRequest (arg8 f.body 0) (arg8 f.body 1) (f.body.drop 2) heard
  else if f.kind = kindAck then takeAck (seqOf f.body) heard
  else takeNak (seqOf f.body) heard

/-- R128, R129: bytes judged in the order given. A discarded frame is counted and its held bytes are judged again before the
bytes that follow. -/
def judgeBytes : Nat → List Byte → State → State
  | 0, _, s => s
  | _, [], s => s
  | fuel + 1, b :: rest, s =>
    match s.rx.take s.clock b with
    | (x, .more) => judgeBytes fuel rest (s.setRx x)
    | (x, .good f) => judgeBytes fuel rest (routeFrame f (s.setRx x))
    | (x, .bad held) => judgeBytes fuel (held ++ rest) (s.setRx x).countDiscard

/-- Enough for any replay: each discard drops the sync byte that began the frame, so no more bytes are judged than the
square of those held and given. -/
def judgeFuel (s : State) (bytes : List Byte) : Nat := (bytes.length + s.rx.held.length + 2) ^ 2

/-- Bytes handed to the receiver. -/
def receiveBytes (bytes : List Byte) (s : State) : State := judgeBytes (judgeFuel s bytes) bytes s

/-- R125, R128: a byte from a good character on RXD; none is taken while the break flag is set (R133). -/
def takeRxdByte (b : Byte) (s : State) : State :=
  if s.rx.broken then s else if s.comes (.byte b) then receiveBytes [b] s.dropDue else s

/-- RXD_BYTE. -/
def execRxdByte (b : Byte) (s : State) : Host.Outcome State Fault Refusal := whenRunning (takeRxdByte b) s

/-- R129: the frame in progress is discarded and counted, and its held bytes are judged again. -/
def discardFrame (held : List Byte) (s : State) : State := receiveBytes held (s.setRx s.rx.toHunt).countDiscard

/-- A whole frame can come as one command: the receiver is in HUNT, as it is when a frame's sync byte comes, no break is on, and
RXD has not been seen, so that its characters come by command (R128, R133, log entry 8). -/
def State.takesFrames (s : State) : Bool := !s.rx.broken && s.line.level.isNone && s.rx.state == .hunt

/-- R125, R129: a character error, which HUNT ignores; or a frame whose last byte shows it damaged. -/
def takeDiscard (cause : Discard) (s : State) : State :=
  match cause with
  | .characterError =>
    if s.rx.broken then s
    else if s.comes .error then
      (if s.rx.state = .hunt then s.dropDue else discardFrame s.rx.held s.dropDue)
    else s
  | .damaged held => if s.takesFrames ∧ damagedBytes held then discardFrame held s else s

/-- FRAME_DISCARD. -/
def execFrameDiscard (cause : Discard) (s : State) : Host.Outcome State Fault Refusal := whenRunning (takeDiscard cause) s

/-- R130: the gap timer expires in LENGTH, BODY or CHECK, unless the next start bit came first. -/
def takeGapExpiry (s : State) : State :=
  match s.rx.gap with
  | none => s
  | some stop =>
    if s.rx.state ≠ .hunt ∧ stop ≤ s.clock ∧ s.startedBefore stop = false then discardFrame s.rx.held s else s

/-- GAP_TIMER_EXPIRY. -/
def execGapTimerExpiry (s : State) : Host.Outcome State Fault Refusal := whenRunning takeGapExpiry s

/-- R131: the receiver has completed a good frame that came without interruption, and is back in HUNT (R128, log entry 8). -/
def takeFrame (f : Frame) (s : State) : State := if s.takesFrames then routeFrame f (s.setRx s.rx.toHunt) else s

/-- REQUEST_FRAME. -/
def execRequestFrame (tag code : Byte) (args : List Byte) (s : State) : Host.Outcome State Fault Refusal :=
  whenRunning (takeFrame { kind := kindRequest, body := tag :: code :: args }) s

/-- ACK_FRAME. -/
def execAckFrame (n : Word16) (s : State) : Host.Outcome State Fault Refusal :=
  whenRunning (takeFrame { kind := kindAck, body := bytes16 n }) s

/-- NAK_FRAME. -/
def execNakFrame (n : Word16) (s : State) : Host.Outcome State Fault Refusal :=
  whenRunning (takeFrame { kind := kindNak, body := bytes16 n }) s

/-- WRONG_KIND_FRAME: a frame that R131 does not discard is none of these. -/
def execWrongKindFrame (kind : Byte) (body : List Byte) (s : State) : Host.Outcome State Fault Refusal :=
  whenRunning
    (fun s => if wrongKind { kind := kind, body := body } then takeFrame { kind := kind, body := body } s else s) s

/-! ## The transmitter -/

/-- R139: the body of an ANNOUNCE, read when its frame starts (10.2). -/
def State.announceBody (s : State) (cause : AnnounceCause) : List Byte :=
  [cause.code, Config.partCode, Config.revision] ++ s.occupancyBytes

/-- R137: the body of a REPLY (10.2). -/
def Reply.body (r : Reply) : List Byte := [r.tag, r.code, r.status.code] ++ r.results

/-- R135: a frame starts as the frame in progress. -/
def State.startFrame (s : State) (source : Source) (f : Frame) : State :=
  { s with tx := { s.tx with frame := some { source := source, bytes := f.bytes, started := s.clock }, tail := none } }

/-- R118, R138, R163: a REPORT frame starts: mark sent, the frame built from the copy, and the ack timer started when no
entry was OUTSTANDING. Without a PENDING entry no frame starts. -/
def startReport (s : State) : State :=
  match s.reportQueue.markSent with
  | none => s
  | some (copy, q) =>
    let timer := if s.reportQueue.outstanding = 0 then s.freshAckTimer else s.session.ackTimer
    ((s.setQueue q).setSession { s.session with ackTimer := timer }).startFrame .report
      { kind := kindReport, body := copy.reportBody }

/-- R136: the arbiter's choice. -/
def takeArbiter (s : State) : State :=
  if s.tx.frame.isSome ∨ s.rx.broken then s
  else
    match s.tx.announce with
    | some cause =>
      { s with tx := { s.tx with announce := none } }.startFrame .announce
        { kind := kindAnnounce, body := s.announceBody cause }
    | none =>
      match s.handler.order with
      | i :: _ =>
        match s.handler.slots.get i with
        | .completed r => s.startFrame (.reply i) { kind := kindReply, body := r.body }
        | _ => s
      | [] => if s.reportAllowed then startReport s else s

/-- ARBITER_CHOICE. -/
def execArbiterChoice (s : State) : Host.Outcome State Fault Refusal := whenRunning takeArbiter s

/-- The moment at which the stop bit of a frame's last byte ends (R125, R135). -/
def Sending.ends (f : Sending) (straps : BitVec 2) : Nat := f.started + f.bytes.length * bytePeriods straps

/-- R157: a slot holds the reply of an executed RESET_DEVICE. -/
def Handler.resetReply (h : Handler) (i : SlotNo) : Bool :=
  match h.mode, h.slots.get i with
  | .resetPending, .completed r => r.code == RequestName.resetDevice.code && r.status == .ok
  | _, _ => false

/-- R137, R147: reply sent: the slot becomes FREE. -/
def Handler.sent (h : Handler) (i : SlotNo) : Handler := { h.setSlot i .free with order := h.order.erase i }

/-- The transmitter with no frame in progress. -/
def State.endFrame (s : State) : State := { s with tx := { s.tx with frame := none } }

/-- R135: the frame is complete, and its block is told. The reply of a RESET_DEVICE lets the reset take effect, with the
strap pins at `straps` (R157) and RXD at the level it shows (R125). -/
def takeCompletion (straps : BitVec 2) (s : State) : State :=
  match s.tx.frame with
  | none => s
  | some f =>
    if s.clock < f.ends s.straps then s
    else
      match f.source with
      | .announce => s.endFrame
      | .report => reportCompleted s.endFrame
      | .reply i =>
        if s.handler.resetReply i then restart .resetRequest { straps := straps, rxd := s.line.level.map fun l => l.1 } s
        else s.endFrame.setHandler (s.handler.sent i)

/-- FRAME_COMPLETION. -/
def execFrameCompletion (straps : BitVec 2) (s : State) : Host.Outcome State Fault Refusal :=
  whenRunning (takeCompletion straps) s

/-- R125, R140: the level of the TXD pin: high in reset and between frames, else that of the character being sent (log entry
21). -/
def State.txdPin (s : State) : Bool :=
  if s.resetLow then true
  else
    match s.tx.frame, s.tx.tail with
    | some f, _ =>
      match f.bytes[(s.clock - f.started) / bytePeriods s.straps]? with
      | some b => characterLevel (bitPeriods s.straps) b ((s.clock - f.started) % bytePeriods s.straps)
      | none => true
    | none, some (b, started) => characterLevel (bitPeriods s.straps) b (s.clock - started)
    | none, none => true

/-! ## Line break -/

/-- R140: the byte being sent, which the transmitter finishes, with the moment its start bit began. -/
def State.currentByte (s : State) : Option (Byte × Nat) :=
  match s.tx.frame with
  | none => s.tx.tail
  | some f =>
    match f.bytes[(s.clock - f.started) / bytePeriods s.straps]? with
    | none => none
    | some b => some (b, f.started + (s.clock - f.started) / bytePeriods s.straps * bytePeriods s.straps)

/-- R133, R140: the receiver and the transmitter at the detection of a break. A frame in progress is dropped and counted (log
entry 17), and a character on its way is taken no more. -/
def breakLink (s : State) : State :=
  let counted := if s.rx.state = .hunt then s else s.countDiscard
  { counted with
    line := { counted.line with char := none, due := none }
    rx := { counted.rx.toHunt with broken := true }
    tx := { frame := none, announce := none, tail := s.currentByte } }

/-- R158: the request handler discards everything it holds. -/
def Handler.discardAll (_ : Handler) : Handler := Handler.reset

/-- R34: a SEEKING axis becomes FREE at a line break. -/
def breakAxis (s : State) (a : AxisNo) : State :=
  if (s.axis a).state = .seeking then s.changeState a { s.axis a with state := .free, homing := none } .linkBreak else s

/-- The axes that a break takes from SEEKING. -/
def State.seekingAxes (s : State) : List AxisNo := allAxes.filter fun a => (s.axis a).state == .seeking

/-- R34, R133: the SEEKING axes at a break. The order of their STATE records is not stated: a free value chooses it when
there are several (log entry 3). -/
def breakAxes (s : State) : State :=
  let l := s.seekingAxes
  (shuffle l.length s.draws l).foldl breakAxis { s with draws := s.draws + l.length }

/-- R133: the detection of a line break. -/
def takeBreak (s : State) : State :=
  if s.rx.broken ∨ s.rxdHeld false = false then s
  else
    let linked := breakLink s
    closeSessionState (breakAxes (linked.setHandler linked.handler.discardAll))

/-- BREAK_DETECTED. -/
def execBreakDetected (s : State) : Host.Outcome State Fault Refusal := whenRunning takeBreak s

/-- R134: the end of a line break. -/
def takeBreakEnd (s : State) : State :=
  if s.rx.broken ∧ s.rxdHeld true then
    { s with rx := { s.rx with broken := false }, tx := { s.tx with announce := some .linkBreak } }
  else s

/-- BREAK_END. -/
def execBreakEnd (s : State) : Host.Outcome State Fault Refusal := whenRunning takeBreakEnd s

end Sys2Proof.Machine
end

