-- ==== Sys2Proof/Machine/Sensors.lean ====
section
/-!
DEFINITION. Input filters, step decoders, sampling and the passing of clock periods (chapter 1).
-/

namespace Sys2Proof.Machine

/-! ## Input filters -/

/-- 1.2: the candidate level, opposite to the accepted level. -/
def Filter.candidate (f : Filter) : Option Bool := f.accepted.map fun b => !b

/-- R2, R4: one sample at a filter of depth `depth`; the second part is the accepted change it reports. -/
def Filter.sample (depth : Nat) (level : Bool) (f : Filter) : Filter × Option Edge :=
  match f.accepted with
  | none => ({ accepted := some level, run := 0 }, none)
  | some a =>
    if level = a then ({ f with run := 0 }, none)
    else if depth = 0 ∨ f.run + 1 = depth then
      ({ accepted := some level, run := 0 }, some (if level then .rising else .falling))
    else ({ f with run := f.run + 1 }, none)

/-! ## Patterns (1.3) -/

/-- 1.3: the phase of a valid pattern in the UP order; bit 0 is A or U, bit 1 B or V, bit 2 W. -/
def phaseOf (mode : InputMode) (p : BitVec 3) : Option Nat :=
  match mode with
  | .hall3 =>
    match p.toNat with
    | 1 => some 0 | 3 => some 1 | 2 => some 2 | 6 => some 3 | 4 => some 4 | 5 => some 5
    | _ => none
  | .quad | .quadIndex =>
    match p.toNat % 4 with
    | 0 => some 0 | 1 => some 1 | 3 => some 2 | _ => some 3

/-- 1.3: the number of phases. -/
def InputMode.phases : InputMode → Nat
  | .quad => 4
  | .quadIndex => 4
  | .hall3 => 6

/-- R7: the pattern of an axis from the accepted levels of the filters of its inputs A/U, B/V and, in HALL3 mode, W; absent while
one of these holds no accepted level. -/
def patternOf (mode : InputMode) (f : Vector Filter 3) : Option (BitVec 3) :=
  let third :=
    match mode with
    | .hall3 => (f.get 2).accepted
    | .quad => some false
    | .quadIndex => some false
  match (f.get 0).accepted, (f.get 1).accepted, third with
  | some a, some b, some z => some (BitVec.ofBool z ++ BitVec.ofBool b ++ BitVec.ofBool a)
  | _, _, _ => none

/-! ## The step decoder -/

/-- What a decoder finds in a new pattern (R10, R11, R12). -/
inductive Judgement where
  /-- The pattern is taken as the start pattern. -/
  | start
  /-- An invalid pattern while awaiting, or the current pattern again: nothing is handed on. -/
  | nothing
  /-- One step. -/
  | single (d : Direction)
  /-- A double step (R13). -/
  | double (d : Direction)
  /-- QUAD_JUMP or HALL_JUMP; the pattern is taken. -/
  | jump (k : FaultKind)
  /-- HALL_INVALID; the awaiting-pattern flag is set. -/
  | invalid
deriving DecidableEq, Repr

/-- R14: inversion. -/
def Direction.invertedBy (d : Direction) (invert : Bool) : Direction :=
  match invert, d with
  | false, d => d
  | true, .up => .down
  | true, .down => .up

/-- R11, R12: a move of `ahead` phases in the cycle. -/
def judgeMove (mode : InputMode) (invert : Bool) (ahead : Nat) : Judgement :=
  match mode with
  | .quad | .quadIndex =>
    match ahead with
    | 1 => .single (Direction.up.invertedBy invert)
    | 2 => .jump .quadJump
    | 3 => .single (Direction.down.invertedBy invert)
    | _ => .nothing
  | .hall3 =>
    match ahead with
    | 1 => .single (Direction.up.invertedBy invert)
    | 2 => .double (Direction.up.invertedBy invert)
    | 3 => .jump .hallJump
    | 4 => .double (Direction.down.invertedBy invert)
    | 5 => .single (Direction.down.invertedBy invert)
    | _ => .nothing

/-- R10, R11, R12: a decoder on a counting axis judges a new pattern. -/
def judgePattern (mode : InputMode) (invert : Bool) (d : Decoder) (p : BitVec 3) : Judgement :=
  match phaseOf mode p with
  | none => if d.awaiting then .nothing else .invalid
  | some q =>
    if d.awaiting then .start
    else
      match phaseOf mode d.current with
      | none => .start
      | some c => judgeMove mode invert ((q + mode.phases - c) % mode.phases)

/-- R15: a decoder on a FAULTED axis follows the sensor. -/
def Decoder.follow (d : Decoder) (mode : InputMode) (p : BitVec 3) : Decoder :=
  match phaseOf mode p with
  | none => { d with awaiting := true }
  | some _ => { d with current := p, awaiting := false }

/-- R7, R8: the decoder takes the pattern change of the sample and judges it once, by the state of its axis. -/
def takePattern (a : AxisNo) (s : State) : State :=
  let c := (s.axis a).config
  let d := { s.decoder a with patternDue := false }
  if (s.decoder a).patternDue then
    match patternOf c.mode (s.sensorFilter a) with
    | none => s.setDecoder a d
    | some p =>
      match (s.axis a).state with
      | .disabled => s.setDecoder a d
      | .faulted => s.setDecoder a (d.follow c.mode p)
      | .free | .seeking | .referenced =>
        match judgePattern c.mode c.invert d p with
        | .start => s.setDecoder a { d with current := p, awaiting := false }
        | .nothing => s.setDecoder a d
        | .single dir =>
          s.setDecoder a { d with current := p, direction := dir, results := d.results ++ [.step dir false] }
        | .double dir =>
          s.setDecoder a { d with
            current := p, direction := dir, results := d.results ++ [.step dir true, .step dir false, .skip dir] }
        | .jump k => takeFault a k (s.setDecoder a { d with current := p, zDue := none })
        | .invalid => takeFault a .hallInvalid (s.setDecoder a { d with awaiting := true, zDue := none })
  else s

/-- PATTERN_CHANGE. -/
def execPatternChange (a : AxisNo) (s : State) : Host.Outcome State Fault Refusal := whenRunning (takePattern a) s

/-! ## Sampling -/

/-- A block that has a hand-over of the present sample to take. -/
inductive Agent where
  | axis (a : AxisNo)
  | capture (n : CaptureNo)
  | link
deriving DecidableEq, Repr

/-- The hand-overs of an axis still to be taken: its pattern change, its arrival, its decoder's results, its index edge. -/
def State.axisWaits (s : State) (a : AxisNo) : Bool :=
  (s.decoder a).patternDue || (s.axis a).arrival.isSome || !(s.decoder a).results.isEmpty || (s.decoder a).zDue.isSome

/-- The hand-overs of a capture line still to be taken. -/
def State.captureWaits (s : State) (n : CaptureNo) : Bool :=
  (s.captureLine n).edgeDue.isSome || (s.captureLine n).waiting.isSome

/-- A character of RXD still to be handed to the link receiver, which takes none while the break flag is set (R133). -/
def State.linkWaits (s : State) : Bool := s.line.due.isSome && !s.rx.broken

/-- The blocks with a hand-over to take. -/
def State.waiting (s : State) : List Agent :=
  ((allAxes.filter s.axisWaits).map .axis) ++ ((allCaptures.filter s.captureWaits).map .capture)
    ++ (if s.linkWaits then [.link] else [])

/-- R125: the character due is handed to the link receiver. -/
def takeCharacter (s : State) : State :=
  match s.line.due with
  | none => s
  | some (.byte b, _) => takeRxdByte b s
  | some (.error, _) => takeDiscard .characterError s

/-- The next hand-over of one block, in the order R18 and R48 give within an axis. -/
def takeNext (x : Agent) (s : State) : State :=
  match x with
  | .axis a =>
    if (s.decoder a).patternDue then takePattern a s
    else if (s.axis a).arrival.isSome then takeArrival a s
    else
      match (s.decoder a).results with
      | .step _ _ :: _ => takeStep a s
      | .skip _ :: _ => takeSkip a s
      | [] => takeIndex a s
  | .capture n => if (s.captureLine n).waiting.isSome then takeCaptureClaim n s else takeCaptureEdge n s
  | .link => takeCharacter s

/-- How many hand-overs can follow from those of an axis. -/
def State.axisWork (s : State) (a : AxisNo) : Nat :=
  (if (s.decoder a).patternDue then 8 else 0) + (if (s.axis a).arrival.isSome then 1 else 0)
    + 2 * (s.decoder a).results.length + (if (s.decoder a).zDue.isSome then 1 else 0)

/-- How many hand-overs can follow from those of a capture line. -/
def State.captureWork (s : State) (n : CaptureNo) : Nat :=
  (if (s.captureLine n).edgeDue.isSome then 2 else 0) + (if (s.captureLine n).waiting.isSome then 1 else 0)

/-- How many hand-overs can follow from those that wait. -/
def State.work (s : State) : Nat :=
  (allAxes.map s.axisWork).sum + (allCaptures.map s.captureWork).sum + (if s.linkWaits then 1 else 0)

/-- R48, R80, R125: what one sample has handed on is taken before the next sample. Where several blocks wait, a free value says
which takes its hand-over next (log entry 3). -/
def settle : Nat → State → State
  | 0, s => s
  | fuel + 1, s =>
    match s.waiting with
    | [] => s
    | [x] => settle fuel (takeNext x s)
    | x :: rest =>
      settle fuel
        (takeNext ((x :: rest).getD (Config.pickOrder s.picks % (x :: rest).length) x) { s with picks := s.picks + 1 })

/-- R1, R7: the sample at the three filters of an axis, and what the decoder is handed: a pattern change when an input of
the pattern has an accepted change, and in QUAD_INDEX mode an accepted change of Z. -/
def sampleAxis (levels : BitVec 12) (s : State) (a : AxisNo) : State :=
  let c := (s.axis a).config
  let f := s.sensorFilter a
  let ra := (f.get 0).sample c.depth (levels.getLsbD (3 * a.val))
  let rb := (f.get 1).sample c.depth (levels.getLsbD (3 * a.val + 1))
  let rz := (f.get 2).sample c.depth (levels.getLsbD (3 * a.val + 2))
  let pattern := ra.2.isSome || rb.2.isSome || (c.mode == .hall3 && rz.2.isSome)
  let z := if c.mode = .quadIndex then rz.2 else none
  (s.setSensorFilter a #v[ra.1, rb.1, rz.1]).setDecoder a { s.decoder a with patternDue := pattern, zDue := z }

/-- R1, R6: the sample at the filter of a capture line, and the edge the capture unit is handed. -/
def sampleCapture (levels : BitVec 4) (s : State) (n : CaptureNo) : State :=
  let r := (s.captureFilter n).sample (s.captureLine n).depth (levels.getLsbD n.val)
  (s.setCaptureFilter n r.1).setCaptureLine n { s.captureLine n with edgeDue := r.2 }

/-- A clock period passes (1.1): what the sample before it handed on has been taken, the request that is due to start has
started (R145), and RXD shows a level. -/
def passPeriod (rxd : Option Bool) (s : State) : State :=
  let t := settle s.work s
  ({ t with clock := t.clock + 1, handler := t.handler.startNext }).followRxd rxd

/-- Clock periods in which no level changes. -/
def passPeriods : Nat → State → State
  | 0, s => s
  | n + 1, s => passPeriods n (passPeriod none s)

/-- R1: a sample. -/
def takeSample (sensors : BitVec 12) (lines : LinePins) (s : State) : State :=
  allCaptures.foldl (sampleCapture lines.captures) (allAxes.foldl (sampleAxis sensors) (passPeriod lines.rxd s))

/-- SAMPLE. -/
def execSample (sensors : BitVec 12) (lines : LinePins) (s : State) : Host.Outcome State Fault Refusal :=
  whenRunning (takeSample sensors lines) s

/-- The clock periods that the microsecond now ending has had no sample for. -/
def State.missingPeriods (s : State) : Nat := s.tickedAt + Config.periodsPerMicro - s.clock

/-- R84: the timebase rises by 1. Twenty clock periods make a microsecond; those that no SAMPLE has counted pass here, with no
change of level (log entry 4). -/
def takeTick (s : State) : State :=
  let t := passPeriods s.missingPeriods s
  { t with timebase := t.timebase + 1, tickedAt := t.clock }

/-- TIMEBASE_TICK. -/
def execTimebaseTick (s : State) : Host.Outcome State Fault Refusal := whenRunning takeTick s

end Sys2Proof.Machine
end

