-- ==== Sys2Proof/Machine/AxisRequests.lean ====
section
/-!
DEFINITION. The axis requests (chapter 2): CONFIGURE_AXIS, ENABLE_AXIS, DISABLE_AXIS, CLEAR_FAULT, SET_POSITION, QUERY_AXIS
and HOME.
-/

namespace Sys2Proof.Machine

/-! ## Waiting -/

/-- R48, R145: a request that may move the position of an axis waits while the axis controller holds that position for an
arrival: it stays the executing request (log entry 29). -/
def afterArrival (act : AxisNo → Request → State → State) (a : AxisNo) (r : Request) (s : State) : State :=
  if (s.axis a).arrival.isSome then s else act a r s

/-- R41, R145: a request that reads an axis together with its decoder waits while the axis controller has results of the decoder
to take: it stays the executing request (log entry 29). -/
def afterResults (act : AxisNo → Request → State → State) (a : AxisNo) (r : Request) (s : State) : State :=
  if (s.decoder a).results ≠ [] then s else act a r s

/-! ## CONFIGURE_AXIS (R22) -/

/-- 10.1: a limit that 0 stands for "none". -/
def limitOf (n : Nat) : Option Nat := if n = 0 then none else some n

/-- R22, check 2: the configuration block whose first byte stands at place 1 of the arguments, when every field is in its
range. -/
def axisConfigOf (l : List Byte) : Option AxisConfig :=
  match inputModeOf (arg8 l 1), onOffOf (arg8 l 3), onOffOf (arg8 l 8), onOffOf (arg8 l 9), onOffOf (arg8 l 11) with
  | some mode, some invert, some reports, some check, some correction =>
    let m := (arg32 l 4).toNat
    let c : AxisConfig :=
      { mode := mode, depth := (arg8 l 2).toNat, invert := invert, modulus := m, indexReports := reports,
        indexCheck := check, tolerance := (arg8 l 10).toNat, correction := correction, homeOffset := argInt l 12,
        travelLimit := limitOf (arg32 l 16).toNat, timeLimit := limitOf (arg16 l 20).toNat, gate := (arg16 l 22).toNat }
    if c.depth ≤ 63 ∧ (m = 0 ∨ (4 ≤ m ∧ m ≤ 16777216)) ∧ positionInRange m c.homeOffset
        ∧ (arg32 l 16).toNat ≤ 2147483647 ∧ 1 ≤ c.gate ∧ c.gate ≤ 1000 then some c
    else none
  | _, _, _, _, _ => none

/-- R22: a configuration taken by an axis; a change of modulus sets position and turns to 0. -/
def Axis.configured (x : Axis) (c : AxisConfig) : Axis :=
  if c.modulus = x.config.modulus then { x with config := c } else { x with config := c, position := 0, turns := 0 }

/-- R3: the sensor filters of an axis take a new depth (log entry 16). -/
def State.newSensorDepth (s : State) (a : AxisNo) : State :=
  let f := s.sensorFilter a
  s.setSensorFilter a #v[(f.get 0).newDepth, (f.get 1).newDepth, (f.get 2).newDepth]

/-- R22: CONFIGURE_AXIS. -/
def configureAxis (a : AxisNo) (r : Request) (s : State) : State :=
  let x := s.axis a
  if x.state ≠ .disabled then answer r .wrongState [] s
  else
    match axisConfigOf r.args with
    | none => answer r .badArgument [] s
    | some c =>
      if c.modulus ≠ x.config.modulus ∧ s.markList a ≠ [] then answer r .wrongState [] s
      else answer r .ok [] ((s.setAxis a (x.configured c)).newSensorDepth a)

/-- CONFIGURE_AXIS. -/
def execConfigureAxis (s : State) : Host.Outcome State Fault Refusal :=
  whenRunning (executeOnAxis .configureAxis (afterArrival configureAxis)) s

/-! ## ENABLE_AXIS, DISABLE_AXIS, CLEAR_FAULT -/

/-- R9: the decoder of an axis that is enabled: the accepted levels give the start pattern, which is taken if it is valid.
What the filters had accepted before the enable is not judged; before
the first sample there is no start pattern (log entries 11 and 19). -/
def startDecoder (mode : InputMode) (f : Vector Filter 3) (d : Decoder) : Decoder :=
  let fresh := { Decoder.reset with current := d.current }
  match patternOf mode f with
  | none => fresh
  | some p =>
    match phaseOf mode p with
    | none => fresh
    | some _ => { fresh with current := p, awaiting := false }

/-- R27: the axis as ENABLE_AXIS leaves it. -/
def Axis.enabled (x : Axis) (now : Nat) (p : Int) : Axis :=
  { x with state := .free, position := p, turns := 0, homing := none }.startGate now

/-- R27: ENABLE_AXIS. -/
def enableAxis (a : AxisNo) (r : Request) (s : State) : State :=
  let x := s.axis a
  let p := argInt r.args 1
  if x.state ≠ .disabled then answer r .wrongState [] s
  else if positionInRange x.config.modulus p then
    answer r .ok []
      ((s.changeState a (x.enabled s.clock p) .request).setDecoder a
        (startDecoder x.config.mode (s.sensorFilter a) (s.decoder a)))
  else answer r .badArgument [] s

/-- ENABLE_AXIS. -/
def execEnableAxis (s : State) : Host.Outcome State Fault Refusal :=
  whenRunning (executeOnAxis .enableAxis (afterArrival enableAxis)) s

/-- R8: the decoder of a disabled axis at its reset values; its results not yet taken are dropped with it
(log entry 19). -/
def resetDecoder (d : Decoder) : Decoder := { Decoder.reset with current := d.current }

/-- R28: DISABLE_AXIS; a HOME under way is answered INTERRUPTED before the request that ends it (R149). -/
def disableAxis (a : AxisNo) (r : Request) (s : State) : State :=
  let x := s.axis a
  if x.state = .disabled then answer r .ok [] s
  else
    let s1 :=
      (s.changeState a { x with state := .disabled, homing := none }.stopGate .request).setDecoder a
        (resetDecoder (s.decoder a))
    answer r .ok []
      (match x.homing with
       | none => s1
       | some h => endDeferred h.slot .interrupted [] s1)

/-- DISABLE_AXIS. -/
def execDisableAxis (s : State) : Host.Outcome State Fault Refusal :=
  whenRunning (executeOnAxis .disableAxis disableAxis) s

/-- R39: CLEAR_FAULT. -/
def clearFault (a : AxisNo) (r : Request) (s : State) : State :=
  let x := s.axis a
  if x.state ≠ .faulted then answer r .wrongState [] s
  else answer r .ok [] (s.changeState a ({ x with state := .free, lastFault := none }.startGate s.clock) .request)

/-- CLEAR_FAULT. -/
def execClearFault (s : State) : Host.Outcome State Fault Refusal := whenRunning (executeOnAxis .clearFault clearFault) s

/-! ## SET_POSITION (R29) -/

/-- R29: the effect on a FREE or REFERENCED axis. -/
def jumpTo (a : AxisNo) (p : Int) (reference : Bool) (s : State) : State :=
  let x := s.axis a
  if x.state = .free ∧ reference then s.changeState a { x with position := p, state := .referenced } .request
  else s.setAxis a { x with position := p }

/-- R29: SET_POSITION; the option byte is judged first (R174). -/
def setPosition (a : AxisNo) (r : Request) (s : State) : State :=
  let x := s.axis a
  let p := argInt r.args 1
  match onOffOf (arg8 r.args 5) with
  | none => answer r .badArgument [] s
  | some reference =>
    match x.state with
    | .free | .referenced =>
      if positionInRange x.config.modulus p then answer r .ok [] (jumpTo a p reference s)
      else answer r .badArgument [] s
    | .disabled | .seeking | .faulted => answer r .wrongState [] s

/-- SET_POSITION. -/
def execSetPosition (s : State) : Host.Outcome State Fault Refusal :=
  whenRunning (executeOnAxis .setPosition (afterArrival setPosition)) s

/-! ## QUERY_AXIS (R41) -/

/-- 10.5.2: the axis configuration block. -/
def AxisConfig.bytes (c : AxisConfig) : List Byte :=
  [c.mode.code, byte8 c.depth, onOff c.invert] ++ nat32 c.modulus
    ++ [onOff c.indexReports, onOff c.indexCheck, byte8 c.tolerance, onOff c.correction] ++ int32 c.homeOffset
    ++ nat32 (c.travelLimit.getD 0) ++ nat16 (c.timeLimit.getD 0) ++ nat16 c.gate

/-- 10.1: the byte of a sensor pattern, whose bit 2 is 0 in the two-input modes. -/
def patternByte (mode : InputMode) (p : BitVec 3) : Byte :=
  match mode with
  | .hall3 => p.zeroExtend 8
  | .quad | .quadIndex => p.zeroExtend 8 &&& 3

/-- R41: the current pattern as shown; while the awaiting-pattern flag is set it has no meaning and a free value is shown
(log entry 9). -/
def State.shownPattern (s : State) (a : AxisNo) : BitVec 3 :=
  if (s.decoder a).awaiting then Config.meaninglessPattern s.draws else (s.decoder a).current

/-- R41: the results of QUERY_AXIS (10.5.2). -/
def State.axisBytes (s : State) (a : AxisNo) : List Byte :=
  let x := s.axis a
  let d := s.decoder a
  [x.state.code] ++ x.config.bytes ++ int32 x.position ++ int32 x.turns
    ++ [d.direction.code, patternByte x.config.mode (s.shownPattern a), onOff d.awaiting] ++ int32 x.lastSpeed
    ++ optionalBytes (x.lastFault.map fun f => f.1.code :: bytes32 f.2)
    ++ optionalBytes
        ((if x.state = .seeking then x.homing else none).map fun h =>
          h.qualifier.code :: stepTotalBytes h.total ++ bytes32 h.startTime)
    ++ [byte8 (s.markList a).length]

/-- R41: QUERY_AXIS, with no result of the decoder still to take: the position and what the decoder shows belong together. -/
def queryAxis (a : AxisNo) (r : Request) (s : State) : State :=
  answer r .ok (s.axisBytes a) (if (s.decoder a).awaiting then { s with draws := s.draws + 1 } else s)

/-- QUERY_AXIS. -/
def execQueryAxis (s : State) : Host.Outcome State Fault Refusal :=
  whenRunning (executeOnAxis .queryAxis (afterResults queryAxis)) s

/-! ## HOME (R30) -/

/-- R30: the homing context of a HOME that is taken. -/
def State.startHoming (s : State) (a : AxisNo) (q : Qualifier) (slot : SlotNo) : Homing :=
  { qualifier := q, total := 0, startTime := s.timebase, timer := (s.axis a).config.timeLimit.map s.afterMillis, slot := slot }

/-- R30: HOME; the qualifier is judged first (R174). -/
def home (a : AxisNo) (r : Request) (s : State) : State :=
  let x := s.axis a
  match qualifierOf (arg8 r.args 1) with
  | none => answer r .badArgument [] s
  | some q =>
    if x.config.mode ≠ .quadIndex then answer r .unsupported [] s
    else if (s.handler.homeOn a).isSome then answer r .busy [] s
    else if x.state ≠ .free ∧ x.state ≠ .referenced then answer r .wrongState [] s
    else
      deferRequest r (.home a)
        (s.changeState a { x with state := .seeking, homing := some (s.startHoming a q r.slot) } .request)

/-- HOME. -/
def execHome (s : State) : Host.Outcome State Fault Refusal := whenRunning (executeOnAxis .home home) s

end Sys2Proof.Machine
end

