-- ==== Sys2Proof/Machine/FilterRequests.lean ====
section
/-!
DEFINITION. SET_FILTER, READ_FILTER, CONFIGURE_TALLY, READ_TALLY and the tally windows (chapter 5).
-/

namespace Sys2Proof.Machine

/-! ## The filter table -/

/-- R99: the tally unit of a filter entry block: absent, or a unit; `none` when it is out of range. -/
def tallyOf (l : List Byte) : Option (Option UnitNo) :=
  if arg8 l 11 = 0 then some none
  else
    match unitOf (arg8 l 12) with
    | none => none
    | some u => some (some u)

/-- R99, R175: the sets of a filter entry hold no bit for a member that is not listed, and the flags value none that the
flags mask does not hold. -/
def filterSetsFit (kinds axes flagsMask flagsValue : Byte) : Bool :=
  kinds.toNat < 64 && axes.toNat < 32 && flagsMask.toNat < 8 && flagsValue.toNat < 8
    && (flagsValue &&& ~~~flagsMask) == 0

/-- R99: the filter entry block whose first byte stands at place 1 of the arguments, when it is taken. -/
def filterEntryOf (l : List Byte) : Option FilterEntry :=
  match onOffOf (arg8 l 1), verdictOf (arg8 l 10), tallyOf l with
  | some enabled, some verdict, some tally =>
    if filterSetsFit (arg8 l 2) (arg8 l 3) (arg8 l 8) (arg8 l 9) then
      some { enabled := enabled, kinds := (arg8 l 2).truncate 6, axes := (arg8 l 3).truncate 5, keyValue := arg16 l 4,
             keyMask := arg16 l 6, flagsMask := (arg8 l 8).truncate 3, flagsValue := (arg8 l 9).truncate 3,
             verdict := verdict, tally := tally }
    else none
  | _, _, _ => none

/-- 10.5.4: the filter entry block. -/
def FilterEntry.bytes (e : FilterEntry) : List Byte :=
  [onOff e.enabled, e.kinds.zeroExtend 8, e.axes.zeroExtend 8] ++ bytes16 e.keyValue ++ bytes16 e.keyMask
    ++ [e.flagsMask.zeroExtend 8, e.flagsValue.zeroExtend 8, e.verdict.code]
    ++ optionalBytes (e.tally.map fun u => [byte8 u.val])

/-- R99: SET_FILTER. -/
def setFilter (r : Request) (s : State) : State :=
  match entryOf (arg8 r.args 0), filterEntryOf r.args with
  | some e, some f => answer r .ok [] (s.setFilterEntry e f)
  | _, _ => answer r .badArgument [] s

/-- SET_FILTER. -/
def execSetFilter (s : State) : Host.Outcome State Fault Refusal := whenRunning (executeAs .setFilter setFilter) s

/-- R100: READ_FILTER. -/
def readFilter (r : Request) (s : State) : State :=
  match entryOf (arg8 r.args 0) with
  | none => answer r .badArgument [] s
  | some e => answer r .ok (s.filterEntry e).bytes s

/-- READ_FILTER. -/
def execReadFilter (s : State) : Host.Outcome State Fault Refusal := whenRunning (executeAs .readFilter readFilter) s

/-! ## Tally units -/

/-- R107: the fields that the new mode uses are in range. -/
def tallyFits (mode : TallyMode) (threshold window : Nat) : Bool :=
  match mode with
  | .off => true
  | .once => threshold != 0
  | .restart => threshold != 0
  | .window => window != 0

/-- R107: a unit as CONFIGURE_TALLY leaves it, with the window of a unit in WINDOW mode ending at `stop`. -/
def configuredTally (mode : TallyMode) (threshold window stop : Nat) : TallyUnit :=
  { mode := mode, count := 0, threshold := threshold, window := window,
    timer := if mode = .window then some stop else none }

/-- R107: CONFIGURE_TALLY. -/
def configureTally (r : Request) (s : State) : State :=
  let threshold := (arg32 r.args 2).toNat
  let window := (arg16 r.args 6).toNat
  match unitOf (arg8 r.args 0), tallyModeOf (arg8 r.args 1) with
  | some u, some mode =>
    if tallyFits mode threshold window then
      answer r .ok [] (s.setTallyUnit u (configuredTally mode threshold window (s.afterMillis window)))
    else answer r .badArgument [] s
  | _, _ => answer r .badArgument [] s

/-- CONFIGURE_TALLY. -/
def execConfigureTally (s : State) : Host.Outcome State Fault Refusal :=
  whenRunning (executeAs .configureTally configureTally) s

/-- R108: READ_TALLY; the option byte is judged with the unit number (R174). -/
def readTally (r : Request) (s : State) : State :=
  match onOffOf (arg8 r.args 1), unitOf (arg8 r.args 0) with
  | some clear, some u =>
    let t := s.tallyUnit u
    answer r .ok (t.mode.code :: nat32 t.count) (if clear then s.setTallyUnit u { t with count := 0 } else s)
  | _, _ => answer r .badArgument [] s

/-- READ_TALLY. -/
def execReadTally (s : State) : Host.Outcome State Fault Refusal := whenRunning (executeAs .readTally readTally) s

/-- R105, R106: a window expiry: a TALLY record with the count goes to the report queue, the count returns to 0 and the next
window follows on the one that ends (log entry 26). -/
def takeWindowExpiry (u : UnitNo) (s : State) : State :=
  let t := s.tallyUnit u
  match t.timer with
  | none => s
  | some stop =>
    if t.mode = .window ∧ stop ≤ s.clock then
      (s.setTallyUnit u { t with count := 0, timer := some (stop + t.window * Config.periodsPerMilli) }).setQueue
        (s.reportQueue.offer { stamp := s.timebase, body := .tally u .window t.count })
    else s

/-- TALLY_WINDOW_EXPIRY. -/
def execTallyWindowExpiry (u : UnitNo) (s : State) : Host.Outcome State Fault Refusal :=
  whenRunning (takeWindowExpiry u) s

end Sys2Proof.Machine
end

