-- ==== Sys2Proof/Machine/GeneralRequests.lean ====
section
/-!
DEFINITION. IDENTIFY, STATUS, TIME, ABORT, RESET_DEVICE and a request with an unknown code (chapter 8).
-/

namespace Sys2Proof.Machine

/-- R146, check 1: the executing request's code names no request. -/
def unknownRequest (s : State) : State :=
  match s.startRequest.handler.executing with
  | none => s
  | some r => if requestOf r.code = none then answer r .unknownRequest [] s.startRequest else s

/-- UNKNOWN_REQUEST. -/
def execUnknownRequest (s : State) : Host.Outcome State Fault Refusal := whenRunning unknownRequest s

/-- R150: the results of IDENTIFY (10.5.1). -/
def State.identifyBytes (s : State) : List Byte :=
  [Config.partCode, Config.revision, 4, 8, 4, byte8 Config.poolSize, 16, 8, byte8 Config.queueSize,
   byte8 Config.requestQueueSize, 10, s.straps.zeroExtend 8]

/-- R150: IDENTIFY. -/
def identify (r : Request) (s : State) : State := answer r .ok s.identifyBytes s

/-- IDENTIFY. -/
def execIdentify (s : State) : Host.Outcome State Fault Refusal := whenRunning (executeAs .identify identify) s

/-- R151: the results of STATUS (10.5.1), read together. -/
def State.statusBytes (s : State) : List Byte :=
  let q := s.reportQueue
  [s.session.state.code, byte8 s.session.window] ++ nat16 s.session.ackTimeout ++ [byte8 s.session.retryLimit]
    ++ [byte8 q.outstanding, byte8 q.entries.length] ++ bytes16 q.oldest ++ bytes16 q.next
    ++ nat16 q.lost.fire ++ nat16 q.lost.capture ++ nat16 q.lost.other
    ++ [byte8 s.freeCount] ++ nat16 s.rx.discarded ++ bytes32 s.timebase ++ [byte8 s.handler.table.length]

/-- R132: the discarded-frame count cleared. -/
def State.clearDiscarded (s : State) : State := { s with rx := { s.rx with discarded := 0 } }

/-- R151: STATUS. -/
def status (r : Request) (s : State) : State :=
  match onOffOf (arg8 r.args 0) with
  | none => answer r .badArgument [] s
  | some clear => answer r .ok s.statusBytes (if clear then s.clearDiscarded else s)

/-- STATUS. -/
def execStatus (s : State) : Host.Outcome State Fault Refusal := whenRunning (executeAs .status status) s

/-- R86: TIME. -/
def time (r : Request) (s : State) : State := answer r .ok (bytes32 s.timebase) s

/-- TIME. -/
def execTime (s : State) : Host.Outcome State Fault Refusal := whenRunning (executeAs .time time) s

/-- R34, R154: one deferred request ended by an ABORT. -/
def abortEntry (s : State) (d : Deferred) : State :=
  match d.kind with
  | .drain _ _ => endDeferred d.slot .aborted [s.queueCountByte] s
  | .home a =>
    endDeferred d.slot .aborted []
      (if (s.axis a).state = .seeking then s.changeState a { s.axis a with state := .free, homing := none } .request
       else s)

/-- R154: the deferred requests that carry a tag, in the order of the table. -/
def Handler.deferredWith (h : Handler) (tag : Byte) : List Deferred := h.table.filter fun d => d.tag == tag

/-- R154: ABORT. -/
def abort (r : Request) (s : State) : State :=
  let l := s.handler.deferredWith (arg8 r.args 0)
  if l.isEmpty then answer r .noSuchRequest [] s
  else answer r .ok [byte8 l.length] (l.foldl abortEntry s)

/-- ABORT. -/
def execAbort (s : State) : Host.Outcome State Fault Refusal := whenRunning (executeAs .abort abort) s

/-- R156: RESET_DEVICE: the handler is in RESET_PENDING, and the reply is completed. -/
def resetDevice (r : Request) (s : State) : State :=
  answer r .ok [] (s.setHandler { s.handler with mode := .resetPending })

/-- RESET_DEVICE. -/
def execResetDevice (s : State) : Host.Outcome State Fault Refusal := whenRunning (executeAs .resetDevice resetDevice) s

end Sys2Proof.Machine
end

