-- ==== Sys2Proof/Machine/MarkRequests.lean ====
section
/-!
DEFINITION. The mark requests (3.3, 3.7 to 3.9) and the mark entry's layout (10.6).
-/

namespace Sys2Proof.Machine

/-! ## The mark entry -/

/-- A mark entry as it stands in the arguments (10.6): fields with their bytes, not yet judged. -/
structure RawMark where
  tag : Word16
  position : Int
  qualifier : Byte
  count : Option Nat
  pitch : Option Int
  pulse : Option Byte
  capture : Option Byte
  release : Option (Byte × Word16)
  report : Byte
deriving DecidableEq, Repr

/-- An optional field of `size` bytes read by `f`, and the bytes after it. -/
def readOptional {α : Type} (size : Nat) (f : List Byte → α) (l : List Byte) : Option α × List Byte :=
  if arg8 l 0 = 1 then (some (f (l.drop 1)), l.drop (1 + size)) else (none, l.drop 1)

/-- A mark entry read, and the bytes after it. -/
def readMark (l : List Byte) : RawMark × List Byte :=
  let count := readOptional 2 (fun x => (arg16 x 0).toNat) (l.drop 7)
  let pitch := readOptional 4 (fun x => argInt x 0) count.2
  let pulse := readOptional 1 (fun x => arg8 x 0) pitch.2
  let capture := readOptional 1 (fun x => arg8 x 0) pulse.2
  let release := readOptional 3 (fun x => (arg8 x 0, arg16 x 1)) capture.2
  ({ tag := arg16 l 0, position := argInt l 2, qualifier := arg8 l 6, count := count.1, pitch := pitch.1,
     pulse := pulse.1, capture := capture.1, release := release.1, report := arg8 release.2 0 }, release.2.drop 1)

/-- The mark entries of a request, in order. -/
def readMarks : Nat → List Byte → List RawMark
  | 0, _ => []
  | n + 1, l => (readMark l).1 :: readMarks n (readMark l).2

/-- An optional part judged: absent is well, present must be read. -/
def judgeOptional {α β : Type} (f : α → Option β) : Option α → Option (Option β)
  | none => some none
  | some x =>
    match f x with
    | none => none
    | some y => some (some y)

/-- R44: the count: ENDLESS when absent, and not 0. -/
def countOf (n : Option Nat) : Option Firings :=
  match n with
  | none => some .endless
  | some 0 => none
  | some (k + 1) => some (.counted (k + 1))

/-- R44: the pitch is absent exactly when the count is 1, is not 0, and on a modular axis is less than M in size. -/
def pitchFits (modulus : Nat) (count : Firings) (pitch : Option Int) : Bool :=
  match pitch with
  | none => count == .counted 1
  | some p => count != .counted 1 && p != 0 && (modulus == 0 || p.natAbs < modulus)

/-- R44: a capture axis set that names axes 0 to 3 and is not empty. -/
def captureSetOf (b : Byte) : Option AxisSet := if b = 0 then none else axisSetOf b

/-- R44: a release action's target. -/
def releaseOf (x : Byte × Word16) : Option (AxisNo × Word16) :=
  match axisOf x.1 with
  | none => none
  | some t => some (t, x.2)

/-- R44: the mark of an entry, with its arm state, on an axis of modulus `modulus`; `none` when it is invalid. -/
def RawMark.judge (modulus : Nat) (armed : Bool) (w : RawMark) : Option Mark :=
  match qualifierOf w.qualifier, countOf w.count, judgeOptional triggerOf w.pulse, judgeOptional captureSetOf w.capture,
      judgeOptional releaseOf w.release, onOffOf w.report with
  | some q, some count, some pulse, some capture, some release, some report =>
    if positionInRange modulus w.position ∧ pitchFits modulus count w.pitch
        ∧ (pulse.isSome ∨ capture.isSome ∨ release.isSome ∨ report) then
      some { tag := w.tag, position := w.position, qualifier := q, count := count, pitch := w.pitch, armed := armed,
             pulse := pulse, capture := capture, release := release, report := report }
    else none
  | _, _, _, _, _, _ => none

/-- R46, check 2: every mark of a request, in order, unless one is invalid. -/
def judgeMarks (modulus : Nat) (armed : Bool) : List RawMark → Option (List Mark)
  | [] => some []
  | w :: ws =>
    match w.judge modulus armed, judgeMarks modulus armed ws with
    | some m, some ms => some (m :: ms)
    | _, _ => none

/-- 3.2: the pitch as shown. It is absent when the count is 1, so a repeating mark come down to its last firing, which keeps the
pitch it was added with (R45, R55), is listed without it and can be added again as it stands (R63, log entry 28). -/
def Mark.shownPitch (m : Mark) : Option Int := if m.count = .counted 1 then none else m.pitch

/-- 10.6: the mark entry of a mark, with its pitch as shown (log entry 28). -/
def Mark.bytes (m : Mark) : List Byte :=
  bytes16 m.tag ++ int32 m.position ++ [m.qualifier.code]
    ++ optionalBytes (match m.count with | .endless => none | .counted n => some (nat16 n))
    ++ optionalBytes (m.shownPitch.map int32) ++ optionalBytes (m.pulse.map fun n => [byte8 n.val])
    ++ optionalBytes (m.capture.map fun x => [x.zeroExtend 8])
    ++ optionalBytes (m.release.map fun x => byte8 x.1.val :: bytes16 x.2) ++ [onOff m.report]

/-! ## The requests -/

/-- The free count as one byte (10.5.3). -/
def State.freeByte (s : State) : List Byte := [byte8 s.freeCount]

/-- R46: ADD_MARKS. -/
def addMarks (r : Request) (s : State) : State :=
  let n := (arg8 r.args 2).toNat
  match axisOf (arg8 r.args 0), onOffOf (arg8 r.args 1) with
  | some a, some armed =>
    if n < 1 ∨ 8 < n then answer r .badArgument s.freeByte s
    else
      match judgeMarks (s.axis a).config.modulus armed (readMarks n (r.args.drop 3)) with
      | none => answer r .badArgument s.freeByte s
      | some ms =>
        if s.freeCount < n then answer r .poolFull s.freeByte s
        else
          let added := s.setMarkList a (insertMarks ms (s.markList a))
          answer r .ok added.freeByte added
  | _, _ => answer r .badArgument s.freeByte s

/-- ADD_MARKS. -/
def execAddMarks (s : State) : Host.Outcome State Fault Refusal := whenRunning (executeAs .addMarks addMarks) s

/-- R60: a mark that a removal takes. -/
def Mark.removedBy (m : Mark) (tag mask : Word16) (selector : Option Bool) : Bool :=
  m.matchesTag tag mask && (match selector with | none => true | some armed => m.armed == armed)

/-- R60: REMOVE_MARKS. -/
def removeMarks (r : Request) (s : State) : State :=
  match axisOf (arg8 r.args 0), selectorOf (arg8 r.args 5) with
  | some a, some selector =>
    let gone := fun m : Mark => m.removedBy (arg16 r.args 1) (arg16 r.args 3) selector
    answer r .ok [byte8 ((s.markList a).countP gone)] (s.setMarkList a ((s.markList a).filter fun m => !gone m))
  | _, _ => answer r .badArgument [] s

/-- REMOVE_MARKS. -/
def execRemoveMarks (s : State) : Host.Outcome State Fault Refusal := whenRunning (executeAs .removeMarks removeMarks) s

/-- R62: RELEASE_MARKS. -/
def releaseMarks (r : Request) (s : State) : State :=
  match axisOf (arg8 r.args 0) with
  | none => answer r .badArgument [] s
  | some a =>
    answer r .ok [byte8 (releasedCount (arg16 r.args 1) (arg16 r.args 3) (s.markList a))]
      (s.release a (arg16 r.args 1) (arg16 r.args 3))

/-- RELEASE_MARKS. -/
def execReleaseMarks (s : State) : Host.Outcome State Fault Refusal :=
  whenRunning (executeAs .releaseMarks releaseMarks) s

/-- 10.5.3: the arm-states byte: bit `i` is 1 when the `i`-th mark returned is ARMED. -/
def armBits : List Mark → Nat
  | [] => 0
  | m :: ms => (if m.armed then 1 else 0) + 2 * armBits ms

/-- R63: the results of LIST_MARKS (10.5.3). -/
def listBytes (l : List Mark) (start wanted : Nat) : List Byte :=
  let ms := (l.drop start).take wanted
  [byte8 l.length, byte8 start, byte8 (armBits ms), byte8 ms.length] ++ ms.flatMap Mark.bytes

/-- R63: LIST_MARKS. -/
def listMarks (r : Request) (s : State) : State :=
  let start := (arg8 r.args 1).toNat
  let wanted := (arg8 r.args 2).toNat
  match axisOf (arg8 r.args 0) with
  | none => answer r .badArgument [] s
  | some a =>
    if 239 < start ∨ wanted < 1 ∨ 8 < wanted then answer r .badArgument [] s
    else answer r .ok (listBytes (s.markList a) start wanted) s

/-- LIST_MARKS. -/
def execListMarks (s : State) : Host.Outcome State Fault Refusal := whenRunning (executeAs .listMarks listMarks) s

end Sys2Proof.Machine
end

