-- ==== Sys2Proof/Machine/Dispatch.lean ====
section
/-!
DEFINITION. What each command does: one arm per command of the table, in the table's order.
-/

namespace Sys2Proof.Machine

def exec (i : Instr) (s : State) : Host.Outcome State Fault Refusal :=
  match i with
  | .powerOn pins => Sys2Proof.Machine.execPowerOn pins s
  | .resetPin => Sys2Proof.Machine.execResetPin s
  | .resetPinRelease pins => Sys2Proof.Machine.execResetPinRelease pins s
  | .patternChange axis => Sys2Proof.Machine.execPatternChange axis s
  | .step axis => Sys2Proof.Machine.execStep axis s
  | .skipNotice axis => Sys2Proof.Machine.execSkipNotice axis s
  | .indexArrival axis => Sys2Proof.Machine.execIndexArrival axis s
  | .arrivalEvaluation axis => Sys2Proof.Machine.execArrivalEvaluation axis s
  | .captureEdge line => Sys2Proof.Machine.execCaptureEdge line s
  | .captureReleaseClaim line => Sys2Proof.Machine.execCaptureReleaseClaim line s
  | .pulseExpiry line => Sys2Proof.Machine.execPulseExpiry line s
  | .holdoffExpiry line => Sys2Proof.Machine.execHoldoffExpiry line s
  | .speedGateExpiry axis => Sys2Proof.Machine.execSpeedGateExpiry axis s
  | .homingTimerExpiry axis => Sys2Proof.Machine.execHomingTimerExpiry axis s
  | .tallyWindowExpiry unit => Sys2Proof.Machine.execTallyWindowExpiry unit s
  | .requestFrame tag code args => Sys2Proof.Machine.execRequestFrame tag code args s
  | .ackFrame seq => Sys2Proof.Machine.execAckFrame seq s
  | .nakFrame seq => Sys2Proof.Machine.execNakFrame seq s
  | .frameDiscard cause => Sys2Proof.Machine.execFrameDiscard cause s
  | .wrongKindFrame kind body => Sys2Proof.Machine.execWrongKindFrame kind body s
  | .gapTimerExpiry => Sys2Proof.Machine.execGapTimerExpiry s
  | .breakDetected => Sys2Proof.Machine.execBreakDetected s
  | .breakEnd => Sys2Proof.Machine.execBreakEnd s
  | .arbiterChoice => Sys2Proof.Machine.execArbiterChoice s
  | .frameCompletion straps => Sys2Proof.Machine.execFrameCompletion straps s
  | .ackTimerExpiry => Sys2Proof.Machine.execAckTimerExpiry s
  | .drainTimerExpiry => Sys2Proof.Machine.execDrainTimerExpiry s
  | .unknownRequest => Sys2Proof.Machine.execUnknownRequest s
  | .identify => Sys2Proof.Machine.execIdentify s
  | .status => Sys2Proof.Machine.execStatus s
  | .time => Sys2Proof.Machine.execTime s
  | .configureAxis => Sys2Proof.Machine.execConfigureAxis s
  | .enableAxis => Sys2Proof.Machine.execEnableAxis s
  | .disableAxis => Sys2Proof.Machine.execDisableAxis s
  | .clearFault => Sys2Proof.Machine.execClearFault s
  | .setPosition => Sys2Proof.Machine.execSetPosition s
  | .queryAxis => Sys2Proof.Machine.execQueryAxis s
  | .home => Sys2Proof.Machine.execHome s
  | .addMarks => Sys2Proof.Machine.execAddMarks s
  | .removeMarks => Sys2Proof.Machine.execRemoveMarks s
  | .releaseMarks => Sys2Proof.Machine.execReleaseMarks s
  | .listMarks => Sys2Proof.Machine.execListMarks s
  | .configureOutput => Sys2Proof.Machine.execConfigureOutput s
  | .pulseOutput => Sys2Proof.Machine.execPulseOutput s
  | .configureCapture => Sys2Proof.Machine.execConfigureCapture s
  | .setFilter => Sys2Proof.Machine.execSetFilter s
  | .readFilter => Sys2Proof.Machine.execReadFilter s
  | .configureTally => Sys2Proof.Machine.execConfigureTally s
  | .readTally => Sys2Proof.Machine.execReadTally s
  | .openSession => Sys2Proof.Machine.execOpenSession s
  | .closeSession => Sys2Proof.Machine.execCloseSession s
  | .drain => Sys2Proof.Machine.execDrain s
  | .abort => Sys2Proof.Machine.execAbort s
  | .resetDevice => Sys2Proof.Machine.execResetDevice s
  | .sample sensors lines => Sys2Proof.Machine.execSample sensors lines s
  | .timebaseTick => Sys2Proof.Machine.execTimebaseTick s
  | .rxdByte byte => Sys2Proof.Machine.execRxdByte byte s

end Sys2Proof.Machine
end

