-- ==== Sys2Proof/Safety.lean ====
section
/-!
DEFINITION. What counts as a safe run, in the terms the claims use. The PF-4 has no stop of its own: a run is safe when every
command answers a next state and the four accounts below hold throughout: of the report queue and the session that
delivers it (chapters 6 and 9), of the axes (chapter 2), of the marks (chapter 3), and of the requests and their reply slots
(chapter 8). The file also names the situations that claims start from.
-/

namespace Sys2Proof.Machine

/-! ## Situations -/

/-- RESETN is not held low, so commands act. -/
abbrev Running (s : State) : Prop := s.resetLow = false

/-- Request `r`, whose code names `n`, is executing and its arguments have passed the length check (R146). -/
abbrev Executing (n : RequestName) (r : Request) (s : State) : Prop :=
  Running s ∧ s.handler.executing = some r ∧ requestOf r.code = some n ∧ n.lengthFault r.args = none

/-- As `Executing`, for a request that names axis `a`, which has passed the axis check too (R146, check 3). -/
abbrev ExecutingOn (n : RequestName) (a : AxisNo) (r : Request) (s : State) : Prop :=
  Executing n r s ∧ (arg8 r.args 0).toNat = a.val

/-- The command that executes a request. -/
def RequestName.command : RequestName → Instr
  | .identify => .identify | .status => .status | .time => .time
  | .configureAxis => .configureAxis | .enableAxis => .enableAxis | .disableAxis => .disableAxis
  | .clearFault => .clearFault | .setPosition => .setPosition | .queryAxis => .queryAxis | .home => .home
  | .addMarks => .addMarks | .removeMarks => .removeMarks | .releaseMarks => .releaseMarks | .listMarks => .listMarks
  | .configureOutput => .configureOutput | .pulseOutput => .pulseOutput | .configureCapture => .configureCapture
  | .setFilter => .setFilter | .readFilter => .readFilter | .configureTally => .configureTally
  | .readTally => .readTally | .openSession => .openSession | .closeSession => .closeSession | .drain => .drain
  | .abort => .abort | .resetDevice => .resetDevice

/-- The statuses of a refusal: a request refused at one of its checks changes no state (R146). -/
def Status.refuses : Status → Bool
  | .unknownRequest | .badLength | .badArgument | .wrongState | .busy | .unsupported | .poolFull | .noSuchRequest => true
  | .ok | .queueFull | .aborted | .interrupted | .noIndex | .timedOut | .faulted => false

/-- A signed 32-bit count raised by 1, with its wrap (0.8). -/
def nextUp (x : Int) : Int := if x = 2147483647 then -2147483648 else x + 1

/-- A signed 32-bit count lowered by 1, with its wrap (0.8). -/
def nextDown (x : Int) : Int := if x = -2147483648 then 2147483647 else x - 1

/-- 1.3: the four QUAD patterns in the UP order, from phase 0; bit 0 is A, bit 1 is B. -/
def quadCycle : Fin 4 → BitVec 3
  | 0 => 0b000 | 1 => 0b001 | 2 => 0b011 | 3 => 0b010

/-- 1.3: the six HALL3 patterns in the UP order, from phase 0; bit 0 is U, bit 1 is V, bit 2 is W. -/
def hallCycle : Fin 6 → BitVec 3
  | 0 => 0b001 | 1 => 0b011 | 2 => 0b010 | 3 => 0b110 | 4 => 0b100 | 5 => 0b101

/-- 1.7: the direction of a move ahead in the cycle, or behind when `ahead` is false, counted after inversion. -/
def moveDirection (ahead invert : Bool) : Direction := if ahead = invert then .down else .up

/-- R17: the accepted change of Z is the edge that gives an index arrival in the direction the decoder holds. -/
abbrev IndexEdge (d : Decoder) : Prop :=
  (d.zDue = some .rising ∧ d.direction = .up) ∨ (d.zDue = some .falling ∧ d.direction = .down)

/-- R18: the decoder of axis `a` has an index edge to judge and nothing of the sample before it. -/
abbrev IndexDue (a : AxisNo) (s : State) : Prop :=
  Running s ∧ (s.decoder a).patternDue = false ∧ (s.decoder a).results = [] ∧ (s.axis a).arrival = none
    ∧ (s.axis a).config.mode = .quadIndex ∧ IndexEdge (s.decoder a)

/-- R17, R18: the decoder of axis `a` has an accepted change of Z to judge and nothing of the sample before it. -/
abbrev ZDue (a : AxisNo) (e : Edge) (s : State) : Prop :=
  Running s ∧ (s.decoder a).patternDue = false ∧ (s.decoder a).results = [] ∧ (s.axis a).arrival = none
    ∧ (s.decoder a).zDue = some e

/-- R31: the homing step total, if there is one, is below the travel limit, if there is one. -/
abbrev BelowTravelLimit (x : Axis) : Prop := ∀ h ∈ x.homing, ∀ l ∈ x.config.travelLimit, h.total < l

/-- R49: a mark that is a candidate of an arrival, as the list stood when the arrival was taken, and whose qualifier admits its
direction. -/
def Mark.candidateOf (m : Mark) (arr : Arrival) : Bool :=
  m.position == arr.position && m.armed
    && (m.qualifier == .either || (m.qualifier == .up && arr.direction == .up)
      || (m.qualifier == .down && arr.direction == .down))

/-- A mark whose one action is its FIRE record. -/
abbrev Mark.onlyReports (m : Mark) : Prop := m.report = true ∧ m.pulse = none ∧ m.capture = none ∧ m.release = none

/-- The commands that hand on what one sample has brought about, and the character that is due (log entry 2). -/
abbrev HandsOn (c : Instr) : Prop :=
  (∃ a, c = .patternChange a) ∨ (∃ a, c = .step a) ∨ (∃ a, c = .skipNotice a) ∨ (∃ a, c = .indexArrival a)
    ∨ (∃ a, c = .arrivalEvaluation a) ∨ (∃ n, c = .captureEdge n) ∨ (∃ n, c = .captureReleaseClaim n)
    ∨ (∃ b, c = .rxdByte b) ∨ c = .frameDiscard .characterError

/-- A whole frame can come as one command (log entry 8): the receiver is in HUNT, no break is on and RXD has not been seen. -/
abbrev FrameMayCome (s : State) : Prop :=
  Running s ∧ s.rx.broken = false ∧ s.line.level = none ∧ s.rx.state = .hunt

/-- Character `c` can be handed to the frame logic (log entry 8): no break is on, and it is due or RXD has not been seen. -/
abbrev CharacterMayCome (c : Character) (s : State) : Prop :=
  Running s ∧ s.rx.broken = false ∧ (s.line.level = none ∨ ∃ edge, s.line.due = some (c, edge))

/-- R133, R134: RXD, as far as it has been seen, has stood at a level for 1 ms (log entries 4 and 8). -/
abbrev RxdHeld (v : Bool) (s : State) : Prop :=
  ∀ l since, s.line.level = some (l, since) → l = v ∧ since + 20000 ≤ s.clock

/-- R57, R96: a key or a tag agrees with a value in every bit position that a mask selects. -/
abbrev AgreesUnder (mask x y : Word16) : Prop := ∀ i, i < 16 → mask.getLsbD i = true → x.getLsbD i = y.getLsbD i

/-- Commands taken one after another. -/
def execAll : List Instr → State → Host.Outcome State Fault Refusal
  | [], s => .next s
  | c :: cs, s =>
    match exec c s with
    | .next t => execAll cs t
    | .fault f => .fault f
    | .refused r => .refused r

/-! ## Reset values -/

/-- Every block holds the reset values that the spec states (R4, R8, R20, R40, R68, R69, R76, R84, R95, R101, R110, R125,
R128, R135, R141, R142, R160), the sections' tables giving the configuration fields. RXD, as far
as it is seen, counts as having just reached its level (R125, log entry 30). -/
def ResetValues (s : State) : Prop :=
  (∀ a i, (s.sensorFilter a).get i = { accepted := none, run := 0 })
  ∧ (∀ n, s.captureFilter n = { accepted := none, run := 0 })
  ∧ (∀ a, (s.decoder a).awaiting = true ∧ (s.decoder a).direction = .up)
  ∧ (∀ a, (s.axis a).state = .disabled ∧ (s.axis a).position = 0 ∧ (s.axis a).turns = 0 ∧ (s.axis a).lastFault = none
      ∧ (s.axis a).lastSpeed = 0 ∧ (s.axis a).homing = none
      ∧ (s.axis a).config =
          { mode := .quad, depth := 3, invert := false, modulus := 0, indexReports := false, indexCheck := false,
            tolerance := 4, correction := false, homeOffset := 0, travelLimit := none, timeLimit := none, gate := 10 })
  ∧ (∀ a, s.markList a = [])
  ∧ (∀ n, s.output n =
      { mode := .pulse, width := 10, idleLevel := false, policy := .retrigger, active := false, pulseEnd := none,
        toggle := false })
  ∧ (∀ n, (s.captureLine n).select = .none ∧ (s.captureLine n).depth = 3 ∧ (s.captureLine n).axes = 0
      ∧ (s.captureLine n).holdoff = 0 ∧ (s.captureLine n).release = none ∧ (s.captureLine n).holdoffEnd = none)
  ∧ s.timebase = 0
  ∧ (∀ e, s.filterEntry e =
      { enabled := false, kinds := 0, axes := 0, keyValue := 0, keyMask := 0, flagsMask := 0, flagsValue := 0,
        verdict := .deliver, tally := none })
  ∧ (∀ u, s.tallyUnit u = { mode := .off, count := 0, threshold := 1, window := 1, timer := none })
  ∧ s.reportQueue = { entries := [], next := 0, lost := { fire := 0, capture := 0, other := 0 } }
  ∧ s.line.char = none ∧ s.line.due = none ∧ (∀ l ∈ s.line.level, l.2 = s.clock)
  ∧ s.rx = { state := .hunt, held := [], gap := none, broken := false, discarded := 0 }
  ∧ s.tx.frame = none
  ∧ (∀ i, s.handler.slots.get i = .free)
  ∧ s.handler.queue = [] ∧ s.handler.executing = none ∧ s.handler.order = [] ∧ s.handler.table = []
  ∧ s.handler.mode = .taking
  ∧ s.session = { state := .closed, window := 4, ackTimeout := 100, retryLimit := 4, retries := 0, ackTimer := none }

/-! ## The account of delivery (R110, R111, R115, R118, R160, R162, R163) -/

/-- R110, R111: the sequence numbers are consecutive in admission order, and the next one follows them. -/
def Numbered (q : ReportQueue) : Prop :=
  (∀ i, i < q.entries.length → (q.entries.map QueueEntry.seq)[i]? = some (q.oldest + BitVec.ofNat 16 i))
  ∧ q.next = q.oldest + BitVec.ofNat 16 q.entries.length

/-- R118: no OUTSTANDING entry stands behind a PENDING one. -/
def OutstandingFirst (q : ReportQueue) : Prop :=
  q.entries.Pairwise fun e f => e.state = .pending → f.state = .pending

/-- The account of delivery: the queue within its capacity and numbered; losses only while it is full; OUTSTANDING entries
at its old end, sent at least once, at most a window of them and none unless the session is OPEN; the ack timer running
exactly while there are any. -/
def DeliveryOk (s : State) : Prop :=
  s.reportQueue.entries.length ≤ Config.queueSize
  ∧ Numbered s.reportQueue
  ∧ (s.reportQueue.lost ≠ Loss.zero → s.reportQueue.entries.length = Config.queueSize)
  ∧ (s.reportQueue.lost.fire ≤ 65535 ∧ s.reportQueue.lost.capture ≤ 65535 ∧ s.reportQueue.lost.other ≤ 65535)
  ∧ OutstandingFirst s.reportQueue
  ∧ (∀ e ∈ s.reportQueue.entries, e.sends ≤ 255 ∧ (e.state = .outstanding → 1 ≤ e.sends))
  ∧ (1 ≤ s.session.window ∧ s.session.window ≤ 16)
  ∧ s.reportQueue.outstanding ≤ s.session.window
  ∧ (s.session.state ≠ .opened → s.reportQueue.outstanding = 0)
  ∧ (s.session.ackTimer.isSome ↔ s.reportQueue.outstanding ≠ 0)

/-! ## The account of the axes (R20, R22, R23, R24, R40, 2.5) -/

/-- A signed 32-bit value. -/
abbrev InInt32 (x : Int) : Prop := -2147483648 ≤ x ∧ x ≤ 2147483647

/-- R23, R43: a position of an axis of modulus `m`. -/
abbrev PositionFits (m : Nat) (x : Int) : Prop := (m = 0 → InInt32 x) ∧ (m ≠ 0 → 0 ≤ x ∧ x < m)

/-- 2.2: every field of a configuration is in its range. -/
def AxisConfig.Fits (c : AxisConfig) : Prop :=
  c.depth ≤ 63 ∧ (c.modulus = 0 ∨ (4 ≤ c.modulus ∧ c.modulus ≤ 16777216)) ∧ c.tolerance ≤ 255
  ∧ PositionFits c.modulus c.homeOffset ∧ (∀ l ∈ c.travelLimit, 1 ≤ l ∧ l ≤ 2147483647)
  ∧ (∀ l ∈ c.timeLimit, 1 ≤ l ∧ l ≤ 65535) ∧ (1 ≤ c.gate ∧ c.gate ≤ 1000)

/-- The account of one axis: its configuration and position in range, no turns on a linear axis, the speed gate running
exactly in the states that count, and a homing context exactly in SEEKING, which only a QUAD_INDEX axis enters. -/
def Axis.Fits (x : Axis) : Prop :=
  x.config.Fits ∧ PositionFits x.config.modulus x.position ∧ InInt32 x.turns ∧ (x.config.modulus = 0 → x.turns = 0)
  ∧ (x.gateTimer.isSome ↔ x.state.counts) ∧ (x.state.counts = false → x.net = 0 ∧ x.lastSpeed = 0)
  ∧ (x.homing.isSome ↔ x.state = .seeking) ∧ (x.state = .seeking → x.config.mode = .quadIndex)

/-- The account of the axes. -/
def AxesOk (s : State) : Prop := ∀ a, (s.axis a).Fits

/-! ## The account of the marks (R42, R43, R44, R45) -/

/-- R44, R45: a mark that can stand on the list of an axis of modulus `m`. -/
def Mark.Fits (m : Nat) (k : Mark) : Prop :=
  PositionFits m k.position
  ∧ (∀ n, k.count = .counted n → 1 ≤ n ∧ n ≤ 65535)
  ∧ (k.pitch = none → k.count = .counted 1)
  ∧ (∀ p ∈ k.pitch, p ≠ 0 ∧ InInt32 p ∧ (m ≠ 0 → p.natAbs < m))
  ∧ (k.pulse.isSome ∨ k.capture.isSome ∨ k.release.isSome ∨ k.report = true)
  ∧ (∀ x ∈ k.capture, x ≠ 0)

/-- The account of the marks: at most 240 on the four lists, each list in ascending order of position and each mark one
that ADD_MARKS could have admitted. -/
def MarksOk (s : State) : Prop :=
  (allAxes.map fun a => (s.markList a).length).sum ≤ Config.poolSize
  ∧ ∀ a, ((s.markList a).Pairwise fun x y => x.position ≤ y.position)
      ∧ ∀ k ∈ s.markList a, k.Fits (s.axis a).config.modulus

/-! ## The account of the requests (R30, R141, R142, R148) -/

/-- The slots that the handler holds: of queued requests, of the executing request, of deferred requests and of completed
replies. -/
def Handler.slotsHeld (h : Handler) : List SlotNo :=
  h.queue.map Request.slot ++ h.executing.toList.map Request.slot ++ h.table.map Deferred.slot ++ h.order

/-- A slot holds a whole reply. -/
def Slot.isCompleted : Slot → Bool
  | .completed _ => true
  | .free => false
  | .reserved _ _ => false
  | .deferred _ _ => false

/-- R141: every slot not FREE belongs to exactly one request, in the slot state that request calls for; the queue and the
deferred table within their bounds. -/
def Handler.Accounts (h : Handler) : Prop :=
  h.slotsHeld.Nodup
  ∧ (∀ i, h.slots.get i = .free ↔ i ∉ h.slotsHeld)
  ∧ (∀ r ∈ h.queue ++ h.executing.toList, h.slots.get r.slot = .reserved r.tag r.code)
  ∧ (∀ d ∈ h.table, h.slots.get d.slot = .deferred d.tag d.code)
  ∧ (∀ i ∈ h.order, (h.slots.get i).isCompleted = true)
  ∧ h.queue.length ≤ Config.requestQueueSize
  ∧ (h.table.filter Deferred.isDrain).length ≤ 1

/-- The account of the requests: the reply slots account for every request, a reply frame in progress is of a completed
reply, and an axis is SEEKING exactly while a HOME stands deferred on it, under the slot its homing context names. -/
def RequestsOk (s : State) : Prop :=
  s.handler.Accounts
  ∧ (∀ f ∈ s.tx.frame, ∀ i, f.source = .reply i → i ∈ s.handler.order)
  ∧ (∀ a, (s.axis a).homing.isSome ↔ (s.axis a).state = .seeking)
  ∧ (∀ a, ∀ h ∈ (s.axis a).homing, ∃ d ∈ s.handler.table, d.kind = .home a ∧ d.slot = h.slot)
  ∧ (∀ d ∈ s.handler.table, ∀ a, d.kind = .home a → ∃ h ∈ (s.axis a).homing, h.slot = d.slot)

/-! ## The accounts of a tally unit and of the receiver (R101, R104, R125, 7.3) -/

/-- R101, R103, R104: the window timer runs exactly in WINDOW mode, and a count is below the threshold it counts to. -/
def TallyUnit.Fits (t : TallyUnit) : Prop :=
  (t.timer.isSome ↔ t.mode = .window)
  ∧ (t.mode = .once ∨ t.mode = .restart → t.count < t.threshold)
  ∧ t.count ≤ 4294967295 ∧ t.threshold ≤ 4294967295

/-- 7.3: what the partial frame and the gap timer hold in each receiver state. -/
def Receiver.Fits (x : Receiver) : Prop :=
  (x.state = .hunt → x.held = [] ∧ x.gap = none)
  ∧ (x.state ≠ .hunt → x.gap.isSome ∧ x.broken = false)
  ∧ (x.state = .length → x.held = [])
  ∧ (x.state = .body → x.held ≠ [] ∧ lenInRange (x.held.headD 0) = true ∧ x.held.length ≤ x.len)
  ∧ (x.state = .check →
      lenInRange (x.held.headD 0) = true ∧ (x.held.length = x.len + 1 ∨ x.held.length = x.len + 2))
  ∧ x.discarded ≤ 65535

/-- R125, R133: what the receiver of characters holds at moment `now`: nothing before RXD has been seen, and no character while
the break flag is set; at most nine levels of a character on its way, of which the first is low. -/
def LineReceiver.Fits (broken : Bool) (now : Nat) (x : LineReceiver) : Prop :=
  (x.level = none → x.char = none ∧ x.due = none)
  ∧ (broken = true → x.char = none ∧ x.due = none)
  ∧ (∀ l ∈ x.level, l.2 ≤ now)
  ∧ (∀ c ∈ x.char, c.edge ≤ now ∧ c.samples.length ≤ 9 ∧ c.samples.head? ≠ some true)
  ∧ (∀ d ∈ x.due, d.2 ≤ now)

/-- Every tally unit and both parts of the receiver are in order. -/
def UnitsOk (s : State) : Prop :=
  (∀ u, (s.tallyUnit u).Fits) ∧ s.rx.Fits ∧ s.line.Fits s.rx.broken s.clock

/-- A safe state: every account holds. -/
def SafeState (s : State) : Prop := DeliveryOk s ∧ AxesOk s ∧ MarksOk s ∧ RequestsOk s ∧ UnitsOk s

/-- A safe run of `n` steps: no step stops the machine and every state passed through is safe. -/
def SafeRun : Nat → State → Prop
  | 0, s => SafeState s
  | n + 1, s => SafeState s ∧ ∃ t, step s = .next t ∧ SafeRun n t

end Sys2Proof.Machine
end

