-- ==== Sys2Proof/WellFormed.lean ====
section
/-!
DEFINITION. When a command can come about. The number of an axis, a line or a unit is in range by its type; what is left
to check is what a command carries of a frame: a frame's LEN is 1 to 200 (7.2), a frame discarded for its kind must be of
a kind or a length that R131 discards, and discarded bytes must be those of a frame that R129 discards.
-/

namespace Sys2Proof

/-- A command that the part can meet. -/
def Instr.wellFormed : Instr → Bool
  | .requestFrame _ _ args => args.length ≤ 197
  | .wrongKindFrame kind body => body.length ≤ 199 && Machine.wrongKind ⟨kind, body⟩
  | .frameDiscard (.damaged held) => Machine.damagedBytes held
  | .frameDiscard .characterError => true
  | .powerOn _ => true
  | .resetPin => true
  | .resetPinRelease _ => true
  | .patternChange _ => true
  | .step _ => true
  | .skipNotice _ => true
  | .indexArrival _ => true
  | .arrivalEvaluation _ => true
  | .captureEdge _ => true
  | .captureReleaseClaim _ => true
  | .pulseExpiry _ => true
  | .holdoffExpiry _ => true
  | .speedGateExpiry _ => true
  | .homingTimerExpiry _ => true
  | .tallyWindowExpiry _ => true
  | .ackFrame _ => true
  | .nakFrame _ => true
  | .gapTimerExpiry => true
  | .breakDetected => true
  | .breakEnd => true
  | .arbiterChoice => true
  | .frameCompletion _ => true
  | .ackTimerExpiry => true
  | .drainTimerExpiry => true
  | .unknownRequest => true
  | .identify => true
  | .status => true
  | .time => true
  | .configureAxis => true
  | .enableAxis => true
  | .disableAxis => true
  | .clearFault => true
  | .setPosition => true
  | .queryAxis => true
  | .home => true
  | .addMarks => true
  | .removeMarks => true
  | .releaseMarks => true
  | .listMarks => true
  | .configureOutput => true
  | .pulseOutput => true
  | .configureCapture => true
  | .setFilter => true
  | .readFilter => true
  | .configureTally => true
  | .readTally => true
  | .openSession => true
  | .closeSession => true
  | .drain => true
  | .abort => true
  | .resetDevice => true
  | .sample _ _ => true
  | .timebaseTick => true
  | .rxdByte _ => true

end Sys2Proof
end

