-- ==== Sys2Proof/Certificates/Slice0/Obligations.lean ====
section
/-!
DEFINITION. The statements about the model, from the numbered rules of spec/. Where an equation gives the next state whole, it
is the frame too: what it does not name stands. `answer`, `endDeferred`, `State.formRecord` and `takeFault` are described by
statements of their own.
-/

open Sys2Proof Sys2Proof.Machine

/-! ## The machine as a whole -/

/-- A step runs the command at the front of the queue with the queue's rest, and every command, whatever the state, answers a
next state: nothing stops the part. -/
def Obligations.StepRunsTheFrontCommand : Prop :=
  (∀ (c : Instr) (rest : List Instr) (s : State), s.pending = c :: rest → step s = exec c { s with pending := rest })
  ∧ (∀ (c : Instr) (s : State), ∃ t, exec c s = .next t)

/-- No command changes the queue of commands that wait. The queue is the model's own and no state of the part (log entry 1), and
a reset keeps it (log entry 24). -/
def Obligations.CommandsLeaveTheQueueOfCommands : Prop :=
  ∀ (c : Instr) (s t : State), exec c s = .next t → t.pending = s.pending

/-- A command for a step that has nothing to take, or whose turn has not come, leaves the state as it stands. That a command
names the attempt and not the event is the model's choice (log entries 1 and 2), and so is when characters and frames can come
by command (log entry 8) and when a request that is due starts (log entry 15). Moments are counted in clock periods (log entry
4). -/
def Obligations.CommandsWithNothingToTakeDoNothing : Prop :=
  ∀ (s : State) (a : AxisNo) (n : CaptureNo) (line : TriggerNo) (u : UnitNo) (b : Byte) (straps : BitVec 2),
    Running s →
    ((s.decoder a).patternDue = false → exec (.patternChange a) s = .next s)
    ∧ ((∀ d i, (s.decoder a).results.head? ≠ some (.step d i)) ∨ (s.axis a).arrival.isSome → exec (.step a) s = .next s)
    ∧ ((∀ d, (s.decoder a).results.head? ≠ some (.skip d)) ∨ (s.axis a).arrival.isSome → exec (.skipNotice a) s = .next s)
    ∧ ((s.decoder a).zDue = none ∨ (s.decoder a).patternDue = true ∨ (s.decoder a).results ≠ [] ∨ (s.axis a).arrival.isSome →
      exec (.indexArrival a) s = .next s)
    ∧ ((s.axis a).arrival = none → exec (.arrivalEvaluation a) s = .next s)
    ∧ ((s.captureLine n).edgeDue = none ∨ (s.captureLine n).waiting.isSome → exec (.captureEdge n) s = .next s)
    ∧ ((s.captureLine n).waiting = none → exec (.captureReleaseClaim n) s = .next s)
    ∧ ((s.output line).mode = .toggle ∨ (s.output line).active = false ∨ (s.output line).pulseEnd = none →
      exec (.pulseExpiry line) s = .next s)
    ∧ ((s.captureLine n).holdoffEnd = none → exec (.holdoffExpiry n) s = .next s)
    ∧ ((s.axis a).gateTimer = none → exec (.speedGateExpiry a) s = .next s)
    ∧ ((s.axis a).homing = none ∨ (∃ h, (s.axis a).homing = some h ∧ h.timer = none) → exec (.homingTimerExpiry a) s = .next s)
    ∧ ((s.tallyUnit u).mode ≠ .window ∨ (s.tallyUnit u).timer = none → exec (.tallyWindowExpiry u) s = .next s)
    ∧ (s.rx.state = .hunt ∨ s.rx.gap = none
        ∨ (∃ stop, s.rx.gap = some stop ∧ ((∃ c ∈ s.line.char, c.edge < stop) ∨ ∃ d ∈ s.line.due, d.2 < stop)) →
      exec .gapTimerExpiry s = .next s)
    ∧ (s.rx.broken = true ∨ (s.line.level ≠ none ∧ ∀ edge, s.line.due ≠ some (.byte b, edge)) → exec (.rxdByte b) s = .next s)
    ∧ (s.rx.broken = true ∨ (s.line.level ≠ none ∧ ∀ edge, s.line.due ≠ some (.error, edge)) →
      exec (.frameDiscard .characterError) s = .next s)
    ∧ (s.rx.broken = true ∨ s.line.level ≠ none ∨ s.rx.state ≠ .hunt → ∀ tag code args seq kind held,
      exec (.requestFrame tag code args) s = .next s ∧ exec (.ackFrame seq) s = .next s ∧ exec (.nakFrame seq) s = .next s
        ∧ exec (.wrongKindFrame kind args) s = .next s ∧ exec (.frameDiscard (.damaged held)) s = .next s)
    ∧ (s.rx.broken = true ∨ (∃ v since, s.line.level = some (v, since) ∧ (v = true ∨ s.clock < since + 20000)) →
      exec .breakDetected s = .next s)
    ∧ (s.rx.broken = false ∨ (∃ v since, s.line.level = some (v, since) ∧ (v = false ∨ s.clock < since + 20000)) →
      exec .breakEnd s = .next s)
    ∧ (s.tx.frame.isSome → exec .arbiterChoice s = .next s)
    ∧ (s.tx.frame = none → exec (.frameCompletion straps) s = .next s)
    ∧ (s.handler.startNext.executing = none → exec .unknownRequest s = .next s ∧ ∀ k : RequestName, exec k.command s = .next s)
    ∧ (∀ r, s.handler.startNext.executing = some r →
      (requestOf r.code ≠ none → exec .unknownRequest s = .next s)
      ∧ ∀ k : RequestName, requestOf r.code ≠ some k → exec k.command s = .next s)

/-- Power-on, the reset pin, its release and the reset of RESET_DEVICE leave every block at its reset values; the straps are
sampled and the ANNOUNCE of the reset waits. That the low level gives the values at once is the model's choice (log entry 6),
and so are the straps of `State.reset` (log entry 5). RXD counts as having just reached the level it shows (R125): the one the
command carries or, at the reset of RESET_DEVICE, the one it had; a level that nothing shows is not yet seen (log entry 30). While
RESETN is low only power-on and the release act (log entry 6). -/
def Obligations.ResetsLeaveTheResetValues : Prop :=
  (∀ (pins : ResetPins) (s : State), ∃ t, exec (.powerOn pins) s = .next t ∧ ResetValues t ∧ Running t ∧ t.straps = pins.straps
      ∧ t.tx.announce = some .powerOn ∧ t.line.level.map Prod.fst = pins.rxd)
  ∧ (∀ s, Running s → ∃ t, exec .resetPin s = .next t ∧ ResetValues t ∧ t.resetLow = true ∧ t.straps = s.straps
      ∧ t.tx.announce = none ∧ (∀ n, t.triggerPin n = false) ∧ t.txdPin = true)
  ∧ (∀ (pins : ResetPins) (s : State), s.resetLow = true → ∃ t, exec (.resetPinRelease pins) s = .next t ∧ ResetValues t
      ∧ Running t ∧ t.straps = pins.straps ∧ t.tx.announce = some .resetPin ∧ t.line.level.map Prod.fst = pins.rxd)
  ∧ (∀ straps s f i r, Running s → s.tx.frame = some f → f.source = .reply i → f.ends s.straps ≤ s.clock →
      s.handler.mode = .resetPending → s.handler.slots.get i = .completed r → r.code = 0x61 → r.status = .ok →
      ∃ t, exec (.frameCompletion straps) s = .next t ∧ ResetValues t ∧ Running t ∧ t.straps = straps
        ∧ t.tx.announce = some .resetRequest ∧ t.line.level.map Prod.fst = s.line.level.map Prod.fst)
  ∧ ResetValues State.reset ∧ State.reset.tx.announce = some .powerOn
  ∧ (∀ (c : Instr) (s : State), s.resetLow = true → (∀ pins, c ≠ .powerOn pins) → (∀ pins, c ≠ .resetPinRelease pins) →
      exec c s = .next s)

/-! ## Sampling, filters and step decoders (chapter 1) -/

/-- R2: a filter follows its table; a level that then holds steady is accepted on the F-th sample that shows it and no
earlier; depths 0 and 1 agree. The first sample of a filter gives its accepted level and no accepted change (R4). -/
def Obligations.FilterFollowsItsTable : Prop :=
  (∀ depth run a level, Filter.sample depth level { accepted := some a, run := run } =
      if level = a then ({ accepted := some a, run := 0 }, none)
      else if depth = 0 ∨ run + 1 = depth then
        ({ accepted := some level, run := 0 }, some (if level then Edge.rising else Edge.falling))
      else ({ accepted := some a, run := run + 1 }, none))
  ∧ (∀ depth run a, 1 ≤ depth →
      (∀ n, n < depth →
        (List.replicate n (!a)).foldl (fun f l => (Filter.sample depth l f).1) { accepted := some a, run := 0 } =
          { accepted := some a, run := n })
      ∧ (List.replicate depth (!a)).foldl (fun f l => (Filter.sample depth l f).1) { accepted := some a, run := 0 } =
          { accepted := some (!a), run := 0 }
      ∧ (Filter.sample depth a { accepted := some a, run := run }).1 = { accepted := some a, run := 0 })
  ∧ (∀ level a, Filter.sample 0 level { accepted := some a, run := 0 } = Filter.sample 1 level { accepted := some a, run := 0 })
  ∧ (∀ a run, Filter.candidate { accepted := some a, run := run } = some (!a))
  ∧ (∀ depth run level, Filter.sample depth level { accepted := none, run := run } =
      ({ accepted := some level, run := 0 }, none))

/-- A sample with nothing of the sample before it still to be taken: every filter takes its pin's level, and the decoders
and capture lines are handed the accepted changes (R1, R4, R6, R7). The clock period it ends is the model's (log entry 4); in it
a request that is due starts (log entry 15) and the receiver of characters sees the level of RXD (log entry 30). -/
def Obligations.SampleHandsOnAcceptedChanges : Prop :=
  ∀ (sensors : BitVec 12) (lines : LinePins) (s : State), Running s → s.waiting = [] →
    ∃ t, exec (.sample sensors lines) s = .next t ∧ t.clock = s.clock + 1
      ∧ (∀ (a : AxisNo) (i : Fin 3), (t.sensorFilter a).get i =
          (((s.sensorFilter a).get i).sample (s.axis a).config.depth (sensors.getLsbD (3 * a.val + i.val))).1)
      ∧ (∀ a : AxisNo, t.decoder a =
          { s.decoder a with
            patternDue :=
              (((s.sensorFilter a).get 0).sample (s.axis a).config.depth (sensors.getLsbD (3 * a.val))).2.isSome
              || (((s.sensorFilter a).get 1).sample (s.axis a).config.depth (sensors.getLsbD (3 * a.val + 1))).2.isSome
              || ((s.axis a).config.mode == .hall3
                && (((s.sensorFilter a).get 2).sample (s.axis a).config.depth (sensors.getLsbD (3 * a.val + 2))).2.isSome)
            zDue :=
              if (s.axis a).config.mode = .quadIndex then
                (((s.sensorFilter a).get 2).sample (s.axis a).config.depth (sensors.getLsbD (3 * a.val + 2))).2
              else none })
      ∧ (∀ n : CaptureNo, t.captureFilter n =
            ((s.captureFilter n).sample (s.captureLine n).depth (lines.captures.getLsbD n.val)).1
          ∧ t.captureLine n = { s.captureLine n with
              edgeDue := ((s.captureFilter n).sample (s.captureLine n).depth (lines.captures.getLsbD n.val)).2 })
      ∧ t.handler = s.handler.startNext
      ∧ t.line =
          (match lines.rxd, s.line.level with
           | some v, _ => s.line.follow s.rx.broken (bitPeriods s.straps) (s.clock + 1) v
           | none, some (v, _) => s.line.follow s.rx.broken (bitPeriods s.straps) (s.clock + 1) v
           | none, none => s.line)
      ∧ { t with clock := s.clock, sensorFilters := s.sensorFilters, captureFilters := s.captureFilters,
                 decoders := s.decoders, captures := s.captures, handler := s.handler, line := s.line } = s

/-- What one sample has handed on is taken whole before the next sample (R48, R80): the settling before a sample is a run of
hand-over commands, after which nothing waits, and nothing else. The separate hand-overs are the model's reading (log entry 2), and
the order in which several blocks take theirs is a free value, of which the model counts those taken (log entry 3). -/
def Obligations.SamplesSettleFirst : Prop :=
  (∀ s : State, Running s → ∃ (cs : List Instr) (t : State), (∀ c ∈ cs, HandsOn c) ∧ cs.length ≤ s.work
      ∧ execAll cs s = .next t ∧ t.waiting = [] ∧ settle s.work s = { t with picks := (settle s.work s).picks })
  ∧ (∀ s : State, (settle s.work s).waiting = [])
  ∧ (∀ s : State, s.waiting = [] → settle s.work s = s)
  ∧ ∀ (sensors : BitVec 12) (lines : LinePins) (s : State), Running s →
      exec (.sample sensors lines) s = exec (.sample sensors lines) (settle s.work s)

/-- R11: a new pattern in QUAD or QUAD_INDEX mode, with the axis counting: one ahead, one behind, opposite. What a block has
handed on waits in State until it is taken (log entry 2). -/
def Obligations.QuadPatternsAreJudged : Prop :=
  ∀ (s : State) (a : AxisNo) (i k : Fin 4) (d : Decoder) (c : AxisConfig), Running s → s.decoder a = d →
    (s.axis a).config = c → (s.axis a).state.counts = true → (c.mode = .quad ∨ c.mode = .quadIndex) →
    d.patternDue = true → d.awaiting = false → d.current = quadCycle i →
    patternOf c.mode (s.sensorFilter a) = some (quadCycle (i + k)) →
    (k = 1 → exec (.patternChange a) s = .next (s.setDecoder a
        { d with patternDue := false, current := quadCycle (i + k), direction := moveDirection true c.invert,
                 results := d.results ++ [.step (moveDirection true c.invert) false] }))
    ∧ (k = 3 → exec (.patternChange a) s = .next (s.setDecoder a
        { d with patternDue := false, current := quadCycle (i + k), direction := moveDirection false c.invert,
                 results := d.results ++ [.step (moveDirection false c.invert) false] }))
    ∧ (k = 2 → exec (.patternChange a) s = .next (takeFault a .quadJump (s.setDecoder a
        { d with patternDue := false, current := quadCycle (i + k), zDue := none })))

/-- R12, R13: a new pattern in HALL3 mode, with the axis counting and the flag clear. What a block has handed on waits in
State until it is taken (log entry 2). -/
def Obligations.HallPatternsAreJudged : Prop :=
  ∀ (s : State) (a : AxisNo) (i : Fin 6) (d : Decoder) (c : AxisConfig), Running s → s.decoder a = d →
    (s.axis a).config = c → (s.axis a).state.counts = true → c.mode = .hall3 → d.patternDue = true → d.awaiting = false →
    d.current = hallCycle i →
    (∀ k : Fin 6, patternOf c.mode (s.sensorFilter a) = some (hallCycle (i + k)) →
      ((k = 1 ∨ k = 5) → exec (.patternChange a) s = .next (s.setDecoder a
          { d with patternDue := false, current := hallCycle (i + k), direction := moveDirection (k = 1) c.invert,
                   results := d.results ++ [.step (moveDirection (k = 1) c.invert) false] }))
      ∧ ((k = 2 ∨ k = 4) → exec (.patternChange a) s = .next (s.setDecoder a
          { d with patternDue := false, current := hallCycle (i + k), direction := moveDirection (k = 2) c.invert,
                   results := d.results ++ [.step (moveDirection (k = 2) c.invert) true,
                     .step (moveDirection (k = 2) c.invert) false, .skip (moveDirection (k = 2) c.invert)] }))
      ∧ (k = 3 → exec (.patternChange a) s = .next (takeFault a .hallJump (s.setDecoder a
          { d with patternDue := false, current := hallCycle (i + k), zDue := none }))))
    ∧ (∀ p, (p = 0b000 ∨ p = 0b111) → patternOf c.mode (s.sensorFilter a) = some p →
      exec (.patternChange a) s = .next (takeFault a .hallInvalid (s.setDecoder a
        { d with patternDue := false, awaiting := true, zDue := none })))

/-- R8, R10, R15: a pattern change that counts nothing: idle on a DISABLED axis, following on a FAULTED one, and the start
pattern of a decoder that awaits one. What a block has handed on waits in State until it is taken (log entry 2). R7: the pattern of
an axis is that of the accepted levels of its pattern inputs, A and B, or U, V and W in HALL3 mode; there is none while one of them
has no accepted level. -/
def Obligations.PatternsThatCountNothing : Prop :=
  (∀ (s : State) (a : AxisNo) (d : Decoder) (m : InputMode) (p : BitVec 3), Running s → s.decoder a = d →
    (s.axis a).config.mode = m → d.patternDue = true → patternOf m (s.sensorFilter a) = some p →
    ((s.axis a).state = .disabled → exec (.patternChange a) s = .next (s.setDecoder a { d with patternDue := false }))
    ∧ ((s.axis a).state = .faulted → exec (.patternChange a) s = .next (s.setDecoder a
        (if m = .hall3 ∧ (p = 0b000 ∨ p = 0b111) then { d with patternDue := false, awaiting := true }
         else { d with patternDue := false, current := p, awaiting := false })))
    ∧ ((s.axis a).state.counts = true → d.awaiting = true → exec (.patternChange a) s = .next (s.setDecoder a
        (if m = .hall3 ∧ (p = 0b000 ∨ p = 0b111) then { d with patternDue := false }
         else { d with patternDue := false, current := p, awaiting := false }))))
  ∧ (∀ (f : Vector Filter 3) (m : InputMode) (a b : Bool), (m = .quad ∨ m = .quadIndex) → (f.get 0).accepted = some a →
      (f.get 1).accepted = some b →
      ∃ p, patternOf m f = some p ∧ p.getLsbD 0 = a ∧ p.getLsbD 1 = b ∧ p.getLsbD 2 = false)
  ∧ (∀ (f : Vector Filter 3) (u v w : Bool), (f.get 0).accepted = some u → (f.get 1).accepted = some v →
      (f.get 2).accepted = some w →
      ∃ p, patternOf .hall3 f = some p ∧ p.getLsbD 0 = u ∧ p.getLsbD 1 = v ∧ p.getLsbD 2 = w)
  ∧ (∀ (f : Vector Filter 3) (m : InputMode),
      (f.get 0).accepted = none ∨ (f.get 1).accepted = none ∨ (m = .hall3 ∧ (f.get 2).accepted = none) → patternOf m f = none)

/-! ## Axis controllers (chapter 2) -/

/-- R13, R24, R25, R31, R40: a step moves the position by one count with its wrap and turns, counts in the speed gate and the
homing total, and on a REFERENCED axis forms an arrival; a step on which the total reaches the travel limit, with no index
edge on the sample, ends homing. A skip notice forms one SKIP record with the position after the second step. What a block has
handed on waits in State until it is taken (log entry 2). The position of a SKIP record is kept in the model's own field (log
entry 20). A step total too great for its four bytes is shown by a free value (log entry 10). -/
def Obligations.StepsMoveTheAxis : Prop :=
  (∀ (s : State) (a : AxisNo) (x : Axis) (d : Decoder) (dir : Direction) (inferred : Bool) (rest : List DecoderResult),
      Running s → s.axis a = x → s.decoder a = d → d.results = .step dir inferred :: rest → x.arrival = none →
      x.state.counts = true → PositionFits x.config.modulus x.position → InInt32 x.turns →
      ∃ p turns,
        (p, turns) =
          (if x.config.modulus = 0 then (if dir = .up then nextUp x.position else nextDown x.position, x.turns)
           else if dir = .up then
             (if x.position = x.config.modulus - 1 then (0, nextUp x.turns) else (x.position + 1, x.turns))
           else if x.position = 0 then ((x.config.modulus : Int) - 1, nextDown x.turns) else (x.position - 1, x.turns))
        ∧ ∃ y : Axis,
          y = { x with
                position := p, turns := turns, stepped := p
                net := if dir = .up then x.net + 1 else x.net - 1
                homing := x.homing.map fun h => { h with total := h.total + 1 }
                arrival := if x.state = .referenced then some { position := p, direction := dir, inferred := inferred } else none }
          ∧ (d.zDue.isSome ∨ BelowTravelLimit y →
              exec (.step a) s = .next ((s.setDecoder a { d with results := rest }).setAxis a y))
          ∧ (∀ h l, d.zDue = none → y.homing = some h → x.config.travelLimit = some l → l ≤ h.total →
              exec (.step a) s = .next (endDeferred h.slot .noIndex (stepTotalBytes h.total)
                (((s.setDecoder a { d with results := rest }).setAxis a { y with state := .free, homing := none }).formRecord
                  (.state a x.state .free .homeFailed)))))
  ∧ (∀ (s : State) (a : AxisNo) (dir : Direction) (rest : List DecoderResult), Running s →
      (s.decoder a).results = .skip dir :: rest → (s.axis a).arrival = none →
      exec (.skipNotice a) s = .next
        ((s.setDecoder a { s.decoder a with results := rest }).formRecord (.skip a (s.axis a).stepped dir)))

/-- R32: an index arrival that the qualifier admits ends homing: the position jumps to H, the turns become 0, the axis becomes
REFERENCED with its STATE record, and the HOME is answered OK with the position before the jump and the step total, as four bytes
or, when it is too great for them, as a free value (log entry 10). What a block has handed on waits in State until it is taken (log
entry 2). -/
def Obligations.IndexEndsHoming : Prop :=
  (∀ n, n < 4294967296 → stepTotalBytes n = nat32 n)
  ∧ ∀ (s : State) (a : AxisNo) (x : Axis) (h : Homing), IndexDue a s → s.axis a = x → x.state = .seeking →
    x.homing = some h → (h.qualifier = .either ∨ (h.qualifier = .up ∧ (s.decoder a).direction = .up)
      ∨ (h.qualifier = .down ∧ (s.decoder a).direction = .down)) →
    exec (.indexArrival a) s = .next (endDeferred h.slot .ok (int32 x.position ++ stepTotalBytes h.total)
      (((s.setDecoder a { s.decoder a with zDue := none }).setAxis a
        { x with position := x.config.homeOffset, turns := 0, state := .referenced, homing := none }).formRecord
          (.state a .seeking .referenced .index)))

/-- R32, R35, R36, R37: an index arrival that serves neither homing nor the check forms an INDEX record when index reports are
on, without a drift, and nothing else. The index check takes the drift, the residue of p - H above -M/2 and at or below M/2:
within the tolerance it is reported and, with correction on, the position jumps to H and moves the wrap with it; beyond it the
axis faults. R17, R8: any other Z change gives no index arrival: a rising one with DOWN held, a falling one with UP held, and
any on a DISABLED or FAULTED axis or in another mode. R31: on a sample with a Z change that does not end homing, a step total that
has reached the travel limit does, once the change has been judged. A step total too great for its four bytes is shown by a free
value (log entry 10). What a block has handed on waits in State until it is taken (log entry 2). -/
def Obligations.IndexIsReportedOrChecked : Prop :=
  (∀ (s : State) (a : AxisNo) (x : Axis), IndexDue a s → s.axis a = x → BelowTravelLimit x →
      (x.state = .free ∨ (x.state = .referenced ∧ (x.config.indexCheck = false ∨ x.config.modulus = 0))
        ∨ (x.state = .seeking ∧ ∃ h, x.homing = some h ∧ h.qualifier = (if (s.decoder a).direction = .up then .down else .up))) →
      exec (.indexArrival a) s = .next
        (if x.config.indexReports then
          (s.setDecoder a { s.decoder a with zDue := none }).formRecord (.index a x.position none false)
         else s.setDecoder a { s.decoder a with zDue := none }))
  ∧ (∀ (s : State) (a : AxisNo) (x : Axis) (r k : Int), IndexDue a s → s.axis a = x → BelowTravelLimit x →
      x.state = .referenced → x.config.indexCheck = true → x.config.modulus ≠ 0 → InInt32 x.turns →
      x.position - x.config.homeOffset = r + k * x.config.modulus → -(x.config.modulus : Int) < 2 * r →
      2 * r ≤ x.config.modulus →
      (r.natAbs ≤ x.config.tolerance →
        exec (.indexArrival a) s = .next
          (((if x.config.indexReports then
              (s.setDecoder a { s.decoder a with zDue := none }).formRecord (.index a x.position (some r) x.config.correction)
             else s.setDecoder a { s.decoder a with zDue := none })).setAxis a
            (if x.config.correction then
              { x with
                position := x.config.homeOffset
                turns := if x.position - r < 0 then nextDown x.turns
                  else if x.position - r ≥ x.config.modulus then nextUp x.turns else x.turns }
             else x)))
      ∧ (x.config.tolerance < r.natAbs →
        exec (.indexArrival a) s = .next (takeFault a .indexDrift
          (if x.config.indexReports then
            (s.setDecoder a { s.decoder a with zDue := none }).formRecord (.index a x.position (some r) false)
           else s.setDecoder a { s.decoder a with zDue := none }))))
  ∧ (∀ (s : State) (a : AxisNo) (e : Edge), ZDue a e s →
      (s.axis a).state = .disabled ∨ (s.axis a).state = .faulted ∨ (s.axis a).config.mode ≠ .quadIndex
        ∨ (BelowTravelLimit (s.axis a) ∧ ((e = .rising ∧ (s.decoder a).direction = .down)
          ∨ (e = .falling ∧ (s.decoder a).direction = .up))) →
      exec (.indexArrival a) s = .next (s.setDecoder a { s.decoder a with zDue := none }))
  ∧ (∀ (s judged : State) (a : AxisNo) (e : Edge) (x : Axis) (h : Homing) (limit : Nat), ZDue a e s → s.axis a = x →
      x.config.mode = .quadIndex → x.state = .seeking → x.homing = some h → x.config.travelLimit = some limit →
      limit ≤ h.total →
      (((e = .rising ∧ (s.decoder a).direction = .down) ∨ (e = .falling ∧ (s.decoder a).direction = .up))
          ∧ judged = s.setDecoder a { s.decoder a with zDue := none })
        ∨ (IndexEdge (s.decoder a) ∧ h.qualifier = (if (s.decoder a).direction = .up then .down else .up)
          ∧ judged = if x.config.indexReports then
              (s.setDecoder a { s.decoder a with zDue := none }).formRecord (.index a x.position none false)
            else s.setDecoder a { s.decoder a with zDue := none }) →
      exec (.indexArrival a) s = .next (endDeferred h.slot .noIndex (stepTotalBytes h.total)
        ((judged.setAxis a { x with state := .free, homing := none }).formRecord (.state a .seeking .free .homeFailed))))

/-- R37, R38: a fault freezes the position, sets the last fault, forms the FAULT record and then the STATE record, stops the
speed gate, and answers a HOME under way FAULTED with the step total, or a free value when it is too great for its four bytes (log
entry 10). -/
def Obligations.FaultsFreezeTheAxis : Prop :=
  ∀ (s : State) (a : AxisNo) (kind : FaultKind) (x : Axis) (faulted : State), s.axis a = x →
    faulted = ((s.setAxis a
      { x with
        lastFault := some (kind, s.timebase), state := .faulted, homing := none, gateTimer := none, net := 0
        lastSpeed := 0 }).formRecord (.fault a kind x.position)).formRecord (.state a x.state .faulted .fault) →
    takeFault a kind s =
      match x.homing with
      | none => faulted
      | some h => endDeferred h.slot .faulted (stepTotalBytes h.total) faulted

/-- R33, R40: the homing timer and the speed gate, when their time has come and before it. Moments are counted in clock
periods, and an expiry before its moment does nothing (log entry 4); the next gate is counted from the end of the one before
(log entry 26). A step total too great for its four bytes is shown by a free value (log entry 10). -/
def Obligations.AxisTimersExpire : Prop :=
  ∀ (s : State) (a : AxisNo) (x : Axis), Running s → s.axis a = x →
    (∀ h stop, x.homing = some h → h.timer = some stop →
      exec (.homingTimerExpiry a) s = .next
        (if stop ≤ s.clock then
          endDeferred h.slot .timedOut (stepTotalBytes h.total)
            ((s.setAxis a { x with state := .free, homing := none }).formRecord (.state a x.state .free .homeFailed))
         else s))
    ∧ (∀ stop, x.gateTimer = some stop →
      exec (.speedGateExpiry a) s = .next
        (if stop ≤ s.clock then
          s.setAxis a { x with lastSpeed := x.net, net := 0, gateTimer := some (stop + x.config.gate * 20000) }
         else s))

/-- R22: CONFIGURE_AXIS and its checks in order; a change of modulus sets position and turns to 0, and the sensor filters take
the new depth (R3). A configuration is taken only from bytes that spell it, with every field a value the spec lists and in its range
(R174). A run restarts though the depth is the same (log entry 16). R48: while the axis holds an arrival the request
waits (log entry 29). -/
def Obligations.ConfigureAxisIsJudged : Prop :=
  (∀ (s : State) (a : AxisNo) (r : Request) (x : Axis), ExecutingOn .configureAxis a r s → s.axis a = x →
    (x.arrival.isSome → exec .configureAxis s = .next s)
    ∧ (x.arrival = none → x.state ≠ .disabled → exec .configureAxis s = .next (answer r .wrongState [] s))
    ∧ (x.arrival = none → x.state = .disabled → axisConfigOf r.args = none →
      exec .configureAxis s = .next (answer r .badArgument [] s))
    ∧ (∀ c, x.arrival = none → x.state = .disabled → axisConfigOf r.args = some c →
      exec .configureAxis s = .next
        (if c.modulus ≠ x.config.modulus ∧ s.markList a ≠ [] then answer r .wrongState [] s
         else answer r .ok []
          ((s.setAxis a
            { x with
              config := c
              position := if c.modulus = x.config.modulus then x.position else 0
              turns := if c.modulus = x.config.modulus then x.turns else 0 }).setSensorFilter a
            ((s.sensorFilter a).map fun f => { f with run := 0 })))))
  ∧ (∀ l c, axisConfigOf l = some c → c.Fits)
  ∧ ∀ (b : Byte) (l : List Byte) (c : AxisConfig), l.length = 23 → axisConfigOf (b :: l) = some c → c.bytes = l

/-- R27, R28, R29, R39, R9, R16: ENABLE_AXIS, DISABLE_AXIS, CLEAR_FAULT and SET_POSITION with their checks in order. The
current pattern of a decoder without a start pattern is left as it was (log entry 9), before the first sample there is none (log
entry 11), and what the decoder had handed on is dropped with its reset (log entry 19). R48: while the axis holds an arrival,
ENABLE_AXIS and SET_POSITION wait (log entry 29). Moments are counted in clock periods (log entry 4). -/
def Obligations.AxisRequestsAreTaken : Prop :=
  ∀ (s : State) (a : AxisNo) (r : Request) (x : Axis), s.axis a = x →
    (ExecutingOn .enableAxis a r s → x.arrival.isSome → exec .enableAxis s = .next s)
    ∧ (ExecutingOn .setPosition a r s → x.arrival.isSome → exec .setPosition s = .next s)
    ∧ (ExecutingOn .enableAxis a r s → x.arrival = none →
      (x.state ≠ .disabled → exec .enableAxis s = .next (answer r .wrongState [] s))
      ∧ (x.state = .disabled → positionInRange x.config.modulus (argInt r.args 1) = false →
        exec .enableAxis s = .next (answer r .badArgument [] s)))
    ∧ (ExecutingOn .enableAxis a r s → x.arrival = none → x.state = .disabled →
      positionInRange x.config.modulus (argInt r.args 1) = true →
      exec .enableAxis s = .next (answer r .ok []
        (((s.setAxis a
          { x with
            state := .free, position := argInt r.args 1, turns := 0, homing := none, net := 0
            gateTimer := some (s.clock + x.config.gate * 20000) }).formRecord (.state a .disabled .free .request)).setDecoder a
          { current :=
              (match patternOf x.config.mode (s.sensorFilter a) with
               | some p => if (phaseOf x.config.mode p).isSome then p else (s.decoder a).current
               | none => (s.decoder a).current)
            direction := .up
            awaiting :=
              (match patternOf x.config.mode (s.sensorFilter a) with
               | some p => (phaseOf x.config.mode p).isNone
               | none => true)
            patternDue := false, zDue := none, results := [] })))
    ∧ (ExecutingOn .disableAxis a r s → x.state ≠ .disabled →
      ∃ t, t = ((s.setAxis a
          { x with state := .disabled, homing := none, gateTimer := none, net := 0, lastSpeed := 0 }).formRecord
            (.state a x.state .disabled .request)).setDecoder a
          { s.decoder a with direction := .up, awaiting := true, patternDue := false, zDue := none, results := [] }
        ∧ exec .disableAxis s = .next (answer r .ok []
            (match x.homing with
             | none => t
             | some h => endDeferred h.slot .interrupted [] t)))
    ∧ (ExecutingOn .disableAxis a r s → x.state = .disabled → exec .disableAxis s = .next (answer r .ok [] s))
    ∧ (ExecutingOn .clearFault a r s →
      exec .clearFault s = .next
        (if x.state = .faulted then
          answer r .ok [] ((s.setAxis a
            { x with
              state := .free, lastFault := none, net := 0
              gateTimer := some (s.clock + x.config.gate * 20000) }).formRecord (.state a .faulted .free .request))
         else answer r .wrongState [] s))
    ∧ (ExecutingOn .setPosition a r s → x.arrival = none → onOffOf (arg8 r.args 5) = none →
      exec .setPosition s = .next (answer r .badArgument [] s))
    ∧ (∀ reference, ExecutingOn .setPosition a r s → x.arrival = none → onOffOf (arg8 r.args 5) = some reference →
      exec .setPosition s = .next
        (if x.state ≠ .free ∧ x.state ≠ .referenced then answer r .wrongState [] s
         else if positionInRange x.config.modulus (argInt r.args 1) = false then answer r .badArgument [] s
         else if x.state = .free ∧ reference = true then
          answer r .ok [] ((s.setAxis a { x with position := argInt r.args 1, state := .referenced }).formRecord
            (.state a .free .referenced .request))
         else answer r .ok [] (s.setAxis a { x with position := argInt r.args 1 })))

/-- R30, R174: HOME and its checks in order; taken, it starts homing and is deferred. Moments are counted in clock periods
(log entry 4). -/
def Obligations.HomeIsJudged : Prop :=
  ∀ (s : State) (a : AxisNo) (r : Request) (x : Axis), ExecutingOn .home a r s → s.axis a = x →
    (2 < (arg8 r.args 1).toNat → exec .home s = .next (answer r .badArgument [] s))
    ∧ (∀ q, qualifierOf (arg8 r.args 1) = some q →
      exec .home s = .next
        (if x.config.mode ≠ .quadIndex then answer r .unsupported [] s
         else if s.handler.table.any (fun d => d.kind == .home a) then answer r .busy [] s
         else if x.state ≠ .free ∧ x.state ≠ .referenced then answer r .wrongState [] s
         else deferRequest r (.home a)
          ((s.setAxis a
            { x with
              state := .seeking
              homing := some
                { qualifier := q, total := 0, startTime := s.timebase
                  timer := x.config.timeLimit.map fun ms => s.clock + ms * 20000
                  slot := r.slot } }).formRecord (.state a x.state .seeking .request))))

/-- R41, 10.5.2: QUERY_AXIS answers with the axis, its decoder and its list as they stand and changes nothing. While the axis
has results of its decoder to take the request waits (log entry 29), so the pattern and the direction shown belong to the
position. While the awaiting flag is set the pattern shown is a free value (log entry 9), for which the model's draw count moves
on, and a step total too great for its four bytes is shown by a free value (log entry 10). -/
def Obligations.QueryAxisReadsTheAxis : Prop :=
  ∀ (s : State) (a : AxisNo) (r : Request) (x : Axis) (d : Decoder), ExecutingOn .queryAxis a r s → s.axis a = x →
    s.decoder a = d →
    (d.results ≠ [] → exec .queryAxis s = .next s)
    ∧ (d.results = [] → ∃ (p : BitVec 3) (draws : Nat), (d.awaiting = false → p = d.current ∧ draws = s.draws)
      ∧ exec .queryAxis s = .next (answer r .ok
          (x.state.code :: x.config.bytes ++ int32 x.position ++ int32 x.turns
            ++ [d.direction.code, patternByte x.config.mode p, onOff d.awaiting] ++ int32 x.lastSpeed
            ++ (match x.lastFault with
                | none => [0]
                | some f => 1 :: f.1.code :: bytes32 f.2)
            ++ (match x.homing with
                | none => [0]
                | some h => if x.state = .seeking then 1 :: h.qualifier.code :: stepTotalBytes h.total ++ bytes32 h.startTime
                            else [0])
            ++ [byte8 (s.markList a).length]) { s with draws := draws }))

/-! ## The mark schedule (chapter 3) -/

/-- R43: a mark enters an ordered list after every mark at its position or a lesser one and before every mark at a greater one;
R46: the marks of a request enter in its order. -/
def Obligations.MarksEnterInOrder : Prop :=
  (∀ (m : Mark) (l : List Mark), l.Pairwise (fun x y => x.position ≤ y.position) →
    insertMark m l = l.filter (fun x => x.position ≤ m.position) ++ m :: l.filter (fun x => m.position < x.position))
  ∧ (∀ (m : Mark) (ms l : List Mark), insertMarks [] l = l ∧ insertMarks (m :: ms) l = insertMarks ms (insertMark m l))

/-- 10.5.2, 10.5.4, 10.6: the layouts that requests and results share are read back as they were written: an axis configuration
with every field in range, a filter entry, and a mark entry, so that every mark can be added again as it is listed (R44, R63): a
mark come down to count 1 without the pitch it keeps (log entry 28). 10.7: the bytes of a record of each kind, with its stamp, and
of the entry that a REPORT carries. 10.1: fields are sent most significant byte first, signed ones in two's complement. 10.3,
10.4: the codes of the statuses and of the enumerations, as they are written and as they are read. -/
def Obligations.LayoutsAreReadBackAsWritten : Prop :=
  (∀ (b : Byte) (c : AxisConfig), c.Fits → axisConfigOf (b :: c.bytes) = some c)
  ∧ (∀ (b : Byte) (f : FilterEntry), f.flagsValue &&& ~~~f.flagsMask = 0 → filterEntryOf (b :: f.bytes) = some f)
  ∧ (∀ (modulus : Nat) (m : Mark) (rest : List Byte), modulus ≤ 16777216 → m.Fits modulus →
      (readMark (m.bytes ++ rest)).2 = rest
      ∧ (readMark (m.bytes ++ rest)).1.judge modulus m.armed =
          some { m with pitch := if m.count = .counted 1 then none else m.pitch })
  ∧ (∀ (stamp : Word32) (r : FireRecord), Record.bytes { stamp := stamp, body := .fire r } =
      1 :: bytes32 stamp ++ (byte8 r.axis.val :: bytes16 r.tag ++ int32 r.position)
        ++ [if r.direction = .up then 0 else 1,
            byte8 ((if r.skipped then 1 else 0) + (if r.final then 2 else 0) + (if r.outputBusy then 4 else 0))]
        ++ (match r.left with | .counted n => nat16 n | .endless => [0xFF, 0xFF])
        ++ (match r.released with | none => [0] | some n => [1, byte8 n])
        ++ (match r.snapshot with
            | none => [0]
            | some l => byte8 l.length :: l.flatMap fun e => byte8 e.axis.val :: e.status.code :: int32 e.position))
  ∧ (∀ (stamp : Word32) (line : CaptureNo) (edge : Edge) (l : List SnapEntry) (released : Option Nat),
      Record.bytes { stamp := stamp, body := .capture line edge l released } =
        2 :: bytes32 stamp ++ [byte8 line.val, if edge = .rising then 1 else 2]
          ++ (match released with | none => [0] | some n => [1, byte8 n])
          ++ byte8 l.length :: l.flatMap fun e => byte8 e.axis.val :: e.status.code :: int32 e.position)
  ∧ (∀ (stamp : Word32) (a : AxisNo) (p : Int) (drift : Option Int) (corrected : Bool),
      Record.bytes { stamp := stamp, body := .index a p drift corrected } =
        3 :: bytes32 stamp ++ (byte8 a.val :: int32 p) ++ (match drift with | none => [0] | some x => 1 :: int32 x)
          ++ [if corrected then 1 else 0])
  ∧ (∀ (stamp : Word32) (a : AxisNo) (p : Int) (d : Direction),
      Record.bytes { stamp := stamp, body := .skip a p d } =
        4 :: bytes32 stamp ++ (byte8 a.val :: int32 p) ++ [if d = .up then 0 else 1])
  ∧ (∀ (stamp : Word32) (a : AxisNo) (k : FaultKind) (p : Int),
      Record.bytes { stamp := stamp, body := .fault a k p } =
        5 :: bytes32 stamp
          ++ [byte8 a.val, match k with | .quadJump => 1 | .hallJump => 2 | .hallInvalid => 3 | .indexDrift => 4] ++ int32 p)
  ∧ (∀ (stamp : Word32) (a : AxisNo) (old new : AxisState) (cause : StateCause),
      Record.bytes { stamp := stamp, body := .state a old new cause } =
        6 :: bytes32 stamp ++ [byte8 a.val, old.code, new.code,
          match cause with | .request => 0 | .index => 1 | .fault => 2 | .homeFailed => 3 | .linkBreak => 4])
  ∧ (∀ (stamp : Word32) (u : UnitNo) (reason : TallyReason) (n : Nat),
      Record.bytes { stamp := stamp, body := .tally u reason n } =
        7 :: bytes32 stamp ++ [byte8 u.val, if reason = .threshold then 1 else 2] ++ nat32 n)
  ∧ (∀ (stamp : Word32) (l : Loss), Record.bytes { stamp := stamp, body := .gap l } =
      8 :: bytes32 stamp ++ nat16 l.fire ++ nat16 l.capture ++ nat16 l.other)
  ∧ (∀ x : AxisState, x.code = match x with | .disabled => 0 | .free => 1 | .seeking => 2 | .referenced => 3 | .faulted => 4)
  ∧ (∀ x : SnapStatus, x.code = match x with | .invalid => 0 | .unreferenced => 1 | .referenced => 2)
  ∧ (∀ x : Status, x.code = match x with
      | .ok => 0 | .queueFull => 1 | .unknownRequest => 2 | .badLength => 3 | .badArgument => 4 | .wrongState => 5 | .busy => 6
      | .unsupported => 7 | .poolFull => 8 | .noSuchRequest => 9 | .aborted => 10 | .interrupted => 11 | .noIndex => 12
      | .timedOut => 13 | .faulted => 14)
  ∧ (∀ x : FaultKind, x.code = match x with | .quadJump => 1 | .hallJump => 2 | .hallInvalid => 3 | .indexDrift => 4)
  ∧ (∀ x : SessionState, x.code = match x with | .closed => 0 | .opened => 1 | .stalled => 2)
  ∧ (∀ x : AnnounceCause, x.code = match x with | .powerOn => 1 | .resetPin => 2 | .resetRequest => 3 | .linkBreak => 4)
  ∧ (∀ x : Direction, x.code = match x with | .up => 0 | .down => 1)
  ∧ (∀ (b : Byte) (x : InputMode),
      x.code = (match x with | .quad => 0 | .quadIndex => 1 | .hall3 => 2) ∧ (inputModeOf b = some x ↔ x.code = b))
  ∧ (∀ (b : Byte) (x : Qualifier),
      x.code = (match x with | .up => 0 | .down => 1 | .either => 2) ∧ (qualifierOf b = some x ↔ x.code = b))
  ∧ (∀ (b : Byte) (x : Verdict), x.code = (match x with | .deliver => 0 | .discard => 1) ∧ (verdictOf b = some x ↔ x.code = b))
  ∧ (∀ (b : Byte) (x : TallyMode),
      x.code = (match x with | .off => 0 | .once => 1 | .restart => 2 | .window => 3) ∧ (tallyModeOf b = some x ↔ x.code = b))
  ∧ (∀ (b : Byte) (x : Bool), onOff x = (if x then 1 else 0) ∧ (onOffOf b = some x ↔ onOff x = b))
  ∧ (∀ (b : Byte) (x : OutputMode), outputModeOf b = some x ↔ b = match x with | .pulse => 0 | .toggle => 1)
  ∧ (∀ (b : Byte) (x : Policy), policyOf b = some x ↔ b = match x with | .retrigger => 0 | .refuse => 1)
  ∧ (∀ (b : Byte) (x : EdgeSelect),
      edgeSelectOf b = some x ↔ b = match x with | .none => 0 | .rising => 1 | .falling => 2 | .both => 3)
  ∧ (∀ (b : Byte) (x : Option Bool),
      selectorOf b = some x ↔ b = match x with | none => 0 | some false => 1 | some true => 2)
  ∧ (∀ (b : Byte) (x : AxisSet), axisSetOf b = some x ↔ b.toNat = x.toNat)
  ∧ (∀ c : AxisConfig, c.bytes =
      [c.mode.code, byte8 c.depth, onOff c.invert] ++ nat32 c.modulus
        ++ [onOff c.indexReports, onOff c.indexCheck, byte8 c.tolerance, onOff c.correction] ++ int32 c.homeOffset
        ++ (match c.travelLimit with | none => nat32 0 | some n => nat32 n)
        ++ (match c.timeLimit with | none => nat16 0 | some n => nat16 n) ++ nat16 c.gate)
  ∧ (∀ m : Mark, m.bytes =
      bytes16 m.tag ++ int32 m.position ++ [m.qualifier.code]
        ++ (match m.count with | .endless => [0] | .counted n => 1 :: nat16 n)
        ++ (match (if m.count = .counted 1 then none else m.pitch) with | none => [0] | some p => 1 :: int32 p)
        ++ (match m.pulse with | none => [0] | some n => [1, byte8 n.val])
        ++ (match m.capture with | none => [0] | some x => [1, byte8 x.toNat])
        ++ (match m.release with | none => [0] | some (a, tag) => 1 :: byte8 a.val :: bytes16 tag) ++ [onOff m.report])
  ∧ (∀ (m : InputMode) (p : BitVec 3), (patternByte m p).toNat = if m = .hall3 then p.toNat else p.toNat % 4)
  ∧ (∀ n, byte8 n = BitVec.ofNat 8 n ∧ nat16 n = bytes16 (BitVec.ofNat 16 n) ∧ nat32 n = bytes32 (BitVec.ofNat 32 n))
  ∧ (∀ x, int32 x = bytes32 (BitVec.ofInt 32 x))
  ∧ (∀ b3 b2 b1 b0 : Byte, bytes16 (b1 ++ b0) = [b1, b0] ∧ bytes32 (b3 ++ b2 ++ b1 ++ b0) = [b3, b2, b1, b0])
  ∧ (∀ (l : List Byte) (i : Nat), arg8 l i = l.getD i 0 ∧ arg16 l i = arg8 l i ++ arg8 l (i + 1)
      ∧ arg32 l i = arg16 l i ++ arg16 l (i + 2) ∧ argInt l i = (arg32 l i).toInt)
  ∧ (∀ e : QueueEntry, e.reportBody = bytes16 e.seq ++ [byte8 e.sends] ++ e.record.bytes)

/-- R46: ADD_MARKS and its checks in order, every reply with the free count. R44, R174, R175: the marks of the request are those
of its entries, unless one of them is invalid; and what makes a mark entry valid, and which mark it then gives. 10.6: an entry is
read field by field, and the entries one after another. -/
def Obligations.AddMarksIsJudged : Prop :=
  (∀ (s : State) (r : Request) (n : Nat), Executing .addMarks r s → (arg8 r.args 2).toNat = n →
    (3 < (arg8 r.args 0).toNat ∨ 1 < (arg8 r.args 1).toNat ∨ n < 1 ∨ 8 < n →
      exec .addMarks s = .next (answer r .badArgument [byte8 s.freeCount] s))
    ∧ (∀ (a : AxisNo) (armed : Bool), (arg8 r.args 0).toNat = a.val → (arg8 r.args 1).toNat = armed.toNat → 1 ≤ n → n ≤ 8 →
      (judgeMarks (s.axis a).config.modulus armed (readMarks n (r.args.drop 3)) = none →
        exec .addMarks s = .next (answer r .badArgument [byte8 s.freeCount] s))
      ∧ (∀ ms, judgeMarks (s.axis a).config.modulus armed (readMarks n (r.args.drop 3)) = some ms →
        ms.length = n
        ∧ exec .addMarks s = .next
          (if s.freeCount < n then answer r .poolFull [byte8 s.freeCount] s
           else answer r .ok [byte8 (s.freeCount - n)] (s.setMarkList a (insertMarks ms (s.markList a)))))))
  ∧ (∀ (modulus : Nat) (armed : Bool) (ws : List RawMark),
      (judgeMarks modulus armed ws = none ↔ ∃ w ∈ ws, w.judge modulus armed = none)
      ∧ ∀ ms, judgeMarks modulus armed ws = some ms ↔ ws.map (fun w => w.judge modulus armed) = ms.map some)
  ∧ (∀ (modulus : Nat) (armed : Bool) (w : RawMark),
      ((w.judge modulus armed).isSome = true ↔
        w.qualifier.toNat ≤ 2 ∧ w.count ≠ some 0 ∧ (modulus = 0 ∨ (0 ≤ w.position ∧ w.position < modulus))
        ∧ (w.pitch = none ↔ w.count = some 1) ∧ (∀ p ∈ w.pitch, p ≠ 0 ∧ (modulus = 0 ∨ p.natAbs < modulus))
        ∧ (∀ b ∈ w.pulse, b.toNat ≤ 7) ∧ (∀ b ∈ w.capture, 1 ≤ b.toNat ∧ b.toNat ≤ 15) ∧ (∀ x ∈ w.release, x.1.toNat ≤ 3)
        ∧ w.report.toNat ≤ 1 ∧ (w.pulse.isSome ∨ w.capture.isSome ∨ w.release.isSome ∨ w.report = 1))
      ∧ ∀ m, w.judge modulus armed = some m →
        m.tag = w.tag ∧ m.position = w.position ∧ m.qualifier.code = w.qualifier ∧ m.pitch = w.pitch ∧ m.armed = armed
        ∧ m.count = (match w.count with | none => .endless | some n => .counted n)
        ∧ m.pulse.map (fun n => byte8 n.val) = w.pulse ∧ m.capture.map (fun x => byte8 x.toNat) = w.capture
        ∧ m.release.map (fun x => (byte8 x.1.val, x.2)) = w.release ∧ onOff m.report = w.report)
  ∧ (∀ (w : RawMark) (rest : List Byte), InInt32 w.position → (∀ p ∈ w.pitch, InInt32 p) → (∀ n ∈ w.count, n ≤ 65535) →
      readMark (bytes16 w.tag ++ int32 w.position ++ [w.qualifier]
        ++ (match w.count with | none => [0] | some n => 1 :: nat16 n)
        ++ (match w.pitch with | none => [0] | some p => 1 :: int32 p)
        ++ (match w.pulse with | none => [0] | some b => [1, b])
        ++ (match w.capture with | none => [0] | some b => [1, b])
        ++ (match w.release with | none => [0] | some (b, tag) => 1 :: b :: bytes16 tag) ++ w.report :: rest) = (w, rest))
  ∧ ∀ (n : Nat) (l : List Byte),
      readMarks 0 l = [] ∧ readMarks (n + 1) l = (readMark l).1 :: readMarks n (readMark l).2

/-- R57, R60, R62, R63: REMOVE_MARKS removes and counts the matching marks that its selection takes in, RELEASE_MARKS arms and
counts the matching HELD marks, LIST_MARKS shows a page of the list; each is refused for an axis that does not exist. -/
def Obligations.MarkRequestsAreTaken : Prop :=
  (∀ (s : State) (r : Request),
    (Executing .removeMarks r s → 3 < (arg8 r.args 0).toNat ∨ 2 < (arg8 r.args 5).toNat →
      exec .removeMarks s = .next (answer r .badArgument [] s))
    ∧ (Executing .releaseMarks r s → 3 < (arg8 r.args 0).toNat → exec .releaseMarks s = .next (answer r .badArgument [] s))
    ∧ (Executing .listMarks r s → 3 < (arg8 r.args 0).toNat → exec .listMarks s = .next (answer r .badArgument [] s)))
  ∧ ∀ (s : State) (r : Request) (a : AxisNo) (l : List Mark) (tag mask : Word16), (arg8 r.args 0).toNat = a.val →
    s.markList a = l → arg16 r.args 1 = tag → arg16 r.args 3 = mask →
    (∀ m : Mark, m.matchesTag tag mask = true ↔ AgreesUnder mask m.tag tag)
    ∧ (Executing .removeMarks r s → (arg8 r.args 5).toNat ≤ 2 →
      ∃ gone : Mark → Bool,
        (∀ m, gone m = (m.matchesTag tag mask
          && ((arg8 r.args 5 == 0) || (arg8 r.args 5 == 1 && !m.armed) || (arg8 r.args 5 == 2 && m.armed))))
        ∧ exec .removeMarks s = .next
          (answer r .ok [byte8 (l.countP gone)] (s.setMarkList a (l.filter fun m => !gone m))))
    ∧ (Executing .releaseMarks r s →
      exec .releaseMarks s = .next
        (answer r .ok [byte8 (l.countP fun m => !m.armed && m.matchesTag tag mask)]
          (s.setMarkList a (l.map fun m => if m.matchesTag tag mask then { m with armed := true } else m))))
    ∧ (∀ start wanted, Executing .listMarks r s → (arg8 r.args 1).toNat = start → (arg8 r.args 2).toNat = wanted →
      exec .listMarks s = .next
        (if 239 < start ∨ wanted < 1 ∨ 8 < wanted then answer r .badArgument [] s
         else answer r .ok
          (byte8 l.length :: byte8 start :: byte8 (armBits ((l.drop start).take wanted))
            :: byte8 ((l.drop start).take wanted).length :: ((l.drop start).take wanted).flatMap Mark.bytes) s))

/-- R49: an arrival at whose position no ARMED mark admits its direction fires nothing: a HELD mark is no candidate, and the
arrival, once taken, changes nothing. R50, R54, R55: an arrival fires the one candidate at its position: a reporting mark
without claims forms its FIRE record and then leaves the list, when it is at its last firing, or moves by its pitch with its
count lowered. Several candidates fire in list order, each once, whatever actions they have (R51, R52, R53), while the marks at the
position that are no candidates keep their places; those that move enter again in that order (R43). A mark that
a candidate's release arms during the evaluation is no candidate of that arrival (R53, R57). What a block has handed on waits in
State until it is taken (log entry 2). -/
def Obligations.ArrivalsFireTheirCandidates : Prop :=
  (∀ (s : State) (a : AxisNo) (arr : Arrival), Running s → (s.axis a).arrival = some arr →
      (∀ m ∈ s.markList a, m.position = arr.position → m.armed = true →
        (m.qualifier = .up ∧ arr.direction = .down) ∨ (m.qualifier = .down ∧ arr.direction = .up)) →
      exec (.arrivalEvaluation a) s = .next (s.setAxis a { s.axis a with arrival := none }))
  ∧ (∀ (s taken : State) (a : AxisNo) (arr : Arrival) (m : Mark) (l1 l2 : List Mark), Running s →
      (s.axis a).arrival = some arr → taken = s.setAxis a { s.axis a with arrival := none } →
      s.markList a = l1 ++ m :: l2 → (∀ x ∈ l1 ++ l2, x.position ≠ arr.position) → m.position = arr.position →
      m.armed = true → (m.qualifier = .either ∨ (m.qualifier = .up ∧ arr.direction = .up)
        ∨ (m.qualifier = .down ∧ arr.direction = .down)) →
      m.report = true → m.pulse = none → m.capture = none → m.release = none →
      (m.count = .counted 1 →
        exec (.arrivalEvaluation a) s = .next ((taken.formRecord (.fire
          { axis := a, tag := m.tag, position := arr.position, direction := arr.direction, skipped := arr.inferred, final := true,
            outputBusy := false, left := .counted 0, released := none, snapshot := none })).setMarkList a (l1 ++ l2)))
      ∧ (∀ n p, m.count = .counted n → 2 ≤ n → m.pitch = some p →
        exec (.arrivalEvaluation a) s = .next ((taken.formRecord (.fire
          { axis := a, tag := m.tag, position := arr.position, direction := arr.direction, skipped := arr.inferred,
            final := false, outputBusy := false, left := .counted (n - 1), released := none, snapshot := none })).setMarkList a
              (insertMark { m with position := reducePosition (s.axis a).config.modulus (arr.position + p)
                                   count := .counted (n - 1) } (l1 ++ l2))))
      ∧ (∀ p, m.count = .endless → m.pitch = some p →
        exec (.arrivalEvaluation a) s = .next ((taken.formRecord (.fire
          { axis := a, tag := m.tag, position := arr.position, direction := arr.direction, skipped := arr.inferred,
            final := false, outputBusy := false, left := .endless, released := none, snapshot := none })).setMarkList a
              (insertMark { m with position := reducePosition (s.axis a).config.modulus (arr.position + p) } (l1 ++ l2)))))
  ∧ (∀ (s taken : State) (a : AxisNo) (arr : Arrival) (l fired : List Mark), Running s → (s.axis a).arrival = some arr →
      taken = s.setAxis a { s.axis a with arrival := none } → s.markList a = l →
      l.Pairwise (fun x y => x.position ≤ y.position) → fired = l.filter (fun m => m.candidateOf arr) →
      (∀ m ∈ fired, m.onlyReports ∧ ∀ m' ∈ m.afterFiring (s.axis a).config.modulus, m'.position ≠ arr.position) →
      exec (.arrivalEvaluation a) s = .next
        ((fired.foldl (fun t m => t.formRecord (.fire
          { axis := a, tag := m.tag, position := arr.position, direction := arr.direction, skipped := arr.inferred,
            final := m.lastFiring, outputBusy := false, left := m.leftAfter, released := none, snapshot := none })) taken).setMarkList a
          (insertMarks (fired.filterMap fun m => m.afterFiring (s.axis a).config.modulus)
            (l.filter fun m => !m.candidateOf arr))))
  ∧ (∀ (s taken : State) (a : AxisNo) (arr : Arrival) (m h : Mark) (l1 l2 : List Mark), Running s →
      (s.axis a).arrival = some arr → taken = s.setAxis a { s.axis a with arrival := none } →
      s.markList a = l1 ++ m :: h :: l2 → (∀ x ∈ l1 ++ l2, x.position ≠ arr.position) → m.candidateOf arr = true →
      m.count = .counted 1 → m.report = true → m.pulse = none → m.capture = none → m.release = some (a, h.tag) →
      h.position = arr.position → h.armed = false → h.qualifier = .either →
      ∃ arm : Mark → Mark, (∀ k, arm k = if k.armed = false ∧ k.tag = h.tag then { k with armed := true } else k)
        ∧ exec (.arrivalEvaluation a) s = .next ((taken.formRecord (.fire
          { axis := a, tag := m.tag, position := arr.position, direction := arr.direction, skipped := arr.inferred, final := true,
            outputBusy := false, left := .counted 0, snapshot := none
            released := some ((l1 ++ h :: l2).countP fun k => !k.armed && k.tag == h.tag) })).setMarkList a
              ((l1 ++ h :: l2).map arm)))
  ∧ (∀ (s taken : State) (a : AxisNo) (arr : Arrival) (l : List Mark) (fires : List (Nat × Mark)), Running s →
      (s.axis a).arrival = some arr → taken = s.setAxis a { s.axis a with arrival := none } → s.markList a = l →
      l.Pairwise (fun x y => x.position ≤ y.position) →
      fires = (List.range l.length).filterMap (fun i => (l[i]?.filter fun m => m.candidateOf arr).map fun m =>
        ((l.take i).countP fun x => x.position == arr.position && !x.candidateOf arr, m)) →
      exec (.arrivalEvaluation a) s = .next (fires.foldl (fun t f => t.fireMark a arr f.1 f.2) taken))

/-- R51, R52, R53: the claims of a firing mark, in their order, of which it may have any: the pulse, the snapshot as it stands
after the pulse with the arrival's position for the arriving axis, the release; and what the record shows of each. R54: a mark
without a report flag and without a capture action forms no record. R52, R79: the snapshot's entries, of the arriving axis and of
the others. R55: a fired mark leaves its place and, unless that was its last firing, enters the list again. -/
def Obligations.FiringMarksMakeTheirClaims : Prop :=
  (∀ (s : State) (a : AxisNo) (arr : Arrival) (n : Nat) (m : Mark),
    ∃ (pulsed released : State) (busy : Bool) (count : Option Nat),
      (m.pulse = none → pulsed = s ∧ busy = false)
      ∧ (∀ line, m.pulse = some line → pulsed = (s.claimPulse line).1 ∧ busy = !(s.claimPulse line).2)
      ∧ (m.release = none → released = pulsed ∧ count = none)
      ∧ (∀ target tag, m.release = some (target, tag) →
        released = pulsed.setMarkList target
            ((s.markList target).map fun k => if !k.armed && k.tag == tag then { k with armed := true } else k)
          ∧ count = some ((s.markList target).countP fun k => !k.armed && k.tag == tag))
      ∧ s.fireMark a arr n m =
        (if m.report = true ∨ m.capture.isSome then
          released.formRecord (.fire
            { axis := a, tag := m.tag, position := arr.position, direction := arr.direction, skipped := arr.inferred,
              final := m.count == .counted 1 || m.count == .counted 0, outputBusy := busy, left := m.leftAfter
              released := count, snapshot := m.capture.map fun set => s.snapshot set (some (a, arr.position)) })
         else released).reposition a arr.position n m)
  ∧ (∀ (s : State) (set : AxisSet) (arriving : Option (AxisNo × Int)), s.snapshot set arriving =
      (([0, 1, 2, 3] : List AxisNo).filter fun a => set.getLsbD a.val).map (s.snapEntry arriving))
  ∧ (∀ (s : State) (a b : AxisNo) (p : Int), s.snapEntry (some (a, p)) b =
      { axis := b
        status := (match (s.axis b).state with
          | .referenced => .referenced
          | .free => .unreferenced
          | .seeking => .unreferenced
          | .disabled => .invalid
          | .faulted => .invalid)
        position := (match (s.axis b).state with
          | .referenced => if b = a then p else (s.axis b).position
          | .free => if b = a then p else (s.axis b).position
          | .seeking => if b = a then p else (s.axis b).position
          | .disabled => 0
          | .faulted => 0) })
  ∧ (∀ (s : State) (a : AxisNo) (m : Mark) (l1 l2 : List Mark), s.markList a = l1 ++ m :: l2 →
      s.reposition a m.position (l1.countP fun x => x.position == m.position) m =
        s.setMarkList a
          (match m.afterFiring (s.axis a).config.modulus with
           | none => l1 ++ l2
           | some m' => insertMark m' (l1 ++ l2)))

/-! ## Trigger and capture lines, the timebase (chapter 4) -/

/-- R70, R71, R73, R74: what a pulse claim does in each mode, line state and policy, with the level of the pin, and
PULSE_OUTPUT, which is a claim answered OK or BUSY and forms no record. The end of a pulse is counted in clock periods (log entry
4). -/
def Obligations.PulseClaimsAreJudged : Prop :=
  (∀ (s : State) (n : TriggerNo) (l : OutputLine), Running s → s.output n = l →
    (l.mode = .pulse → l.active = false →
      s.claimPulse n = (s.setOutput n { l with active := true, pulseEnd := some (s.clock + l.width * 20) }, true)
      ∧ s.triggerPin n = l.idleLevel ∧ (s.claimPulse n).1.triggerPin n = !l.idleLevel)
    ∧ (l.mode = .pulse → l.active = true → l.policy = .retrigger →
      s.claimPulse n = (s.setOutput n { l with pulseEnd := some (s.clock + l.width * 20) }, true)
      ∧ (s.claimPulse n).1.triggerPin n = s.triggerPin n)
    ∧ (l.mode = .pulse → l.active = true → l.policy = .refuse → s.claimPulse n = (s, false))
    ∧ (l.mode = .toggle →
      s.claimPulse n = (s.setOutput n { l with toggle := !l.toggle, active := (!l.toggle) != l.idleLevel }, true)
      ∧ (s.claimPulse n).1.triggerPin n = !s.triggerPin n))
  ∧ (∀ (s : State) (r : Request), Executing .pulseOutput r s →
    (7 < (arg8 r.args 0).toNat → exec .pulseOutput s = .next (answer r .badArgument [] s))
    ∧ (∀ n : TriggerNo, (arg8 r.args 0).toNat = n.val →
      exec .pulseOutput s = .next (answer r (if (s.claimPulse n).2 then .ok else .busy) [] (s.claimPulse n).1)))

/-- R72, R75: a pulse expires when its end time is reached and not before; CONFIGURE_OUTPUT sets the line IDLE at the new idle
level and holds the new fields, or is refused and changes nothing. Moments are counted in clock periods, and an expiry before
its moment does nothing (log entry 4). -/
def Obligations.OutputLinesExpireAndConfigure : Prop :=
  (∀ (s : State) (n : TriggerNo) (l : OutputLine) (stop : Nat), Running s → s.output n = l → l.mode = .pulse →
    l.active = true → l.pulseEnd = some stop →
    exec (.pulseExpiry n) s = .next (if stop ≤ s.clock then s.setOutput n { l with active := false, pulseEnd := none } else s)
    ∧ (stop ≤ s.clock → (s.setOutput n { l with active := false, pulseEnd := none }).triggerPin n = l.idleLevel))
  ∧ (∀ (s : State) (r : Request), Executing .configureOutput r s →
    (7 < (arg8 r.args 0).toNat ∨ 1 < (arg8 r.args 1).toNat ∨ (arg16 r.args 2).toNat = 0 ∨ 1 < (arg8 r.args 4).toNat
        ∨ 1 < (arg8 r.args 5).toNat →
      exec .configureOutput s = .next (answer r .badArgument [] s))
    ∧ (∀ (n : TriggerNo) (mode : OutputMode) (idle : Bool) (policy : Policy), (arg8 r.args 0).toNat = n.val →
      outputModeOf (arg8 r.args 1) = some mode → (arg16 r.args 2).toNat ≠ 0 → onOffOf (arg8 r.args 4) = some idle →
      policyOf (arg8 r.args 5) = some policy →
      ∃ t, t = s.setOutput n
          { mode := mode, width := (arg16 r.args 2).toNat, idleLevel := idle, policy := policy, active := false,
            pulseEnd := none, toggle := idle }
        ∧ exec .configureOutput s = .next (answer r .ok [] t) ∧ t.triggerPin n = idle))

/-- R77, R78, R79, R81: the capture unit judges an edge. A selected edge on an open line takes the snapshot, starts the
holdoff and, without a release target, forms the CAPTURE record at once; with one, the capture waits for its release (R80).
What a block has handed on waits in State until it is taken (log entry 2). Moments are counted in clock periods (log entry 4).
-/
def Obligations.CaptureEdgesAreJudged : Prop :=
  ∀ (s : State) (n : CaptureNo) (l : CaptureLine) (e : Edge), Running s → s.captureLine n = l → l.edgeDue = some e →
    l.waiting = none →
    ((l.select = .none ∨ (l.select = .rising ∧ e = .falling) ∨ (l.select = .falling ∧ e = .rising) ∨ l.holdoffEnd.isSome) →
      exec (.captureEdge n) s = .next (s.setCaptureLine n { l with edgeDue := none }))
    ∧ ((l.select = .both ∨ (l.select = .rising ∧ e = .rising) ∨ (l.select = .falling ∧ e = .falling)) →
      l.holdoffEnd = none →
      ∃ shot : List SnapEntry, ∃ held : CaptureLine,
        shot = (([0, 1, 2, 3] : List AxisNo).filter fun a => l.axes.getLsbD a.val).map (fun a =>
          { axis := a
            status := (match (s.axis a).state with
              | .referenced => .referenced
              | .free => .unreferenced
              | .seeking => .unreferenced
              | .disabled => .invalid
              | .faulted => .invalid)
            position := (match (s.axis a).state with
              | .referenced => (s.axis a).position
              | .free => (s.axis a).position
              | .seeking => (s.axis a).position
              | .disabled => 0
              | .faulted => 0) })
        ∧ held = { l with edgeDue := none, holdoffEnd := if l.holdoff = 0 then none else some (s.clock + l.holdoff * 20) }
        ∧ (l.release = none →
          exec (.captureEdge n) s = .next ((s.setCaptureLine n held).formRecord (.capture n e shot none)))
        ∧ (∀ target, l.release = some target →
          exec (.captureEdge n) s = .next
            (s.setCaptureLine n { held with waiting := some { edge := e, snapshot := shot, target := target } })))

/-- R80, R81, R82, R83: the release claim of a capture with its record, the expiry of a holdoff, and CONFIGURE_CAPTURE. What a
block has handed on waits in State until it is taken (log entry 2). Moments are counted in clock periods, and an expiry before
its moment does nothing (log entry 4). CONFIGURE_CAPTURE restarts the run of the line's filter though the depth is the same (log
entry 16). Its release target is absent, or an axis that exists and a tag. -/
def Obligations.CaptureLinesReleaseExpireAndConfigure : Prop :=
  (∀ (s : State) (n : CaptureNo) (l : CaptureLine) (w : PendingCapture) (target : AxisNo) (tag : Word16), Running s →
    s.captureLine n = l → l.waiting = some w → w.target = (target, tag) →
    exec (.captureReleaseClaim n) s = .next
      (((s.setCaptureLine n { l with waiting := none }).setMarkList target
        ((s.markList target).map fun k => if !k.armed && k.tag == tag then { k with armed := true } else k)).formRecord
          (.capture n w.edge w.snapshot (some ((s.markList target).countP fun k => !k.armed && k.tag == tag)))))
  ∧ (∀ (s : State) (n : CaptureNo) (l : CaptureLine) (stop : Nat), Running s → s.captureLine n = l →
    l.holdoffEnd = some stop →
    exec (.holdoffExpiry n) s = .next (if stop ≤ s.clock then s.setCaptureLine n { l with holdoffEnd := none } else s))
  ∧ (∀ (s : State) (r : Request), Executing .configureCapture r s →
    (3 < (arg8 r.args 0).toNat ∨ 3 < (arg8 r.args 1).toNat ∨ 63 < (arg8 r.args 2).toNat ∨ 15 < (arg8 r.args 3).toNat
        ∨ (arg8 r.args 6 ≠ 0 ∧ 3 < (arg8 r.args 7).toNat) →
      exec .configureCapture s = .next (answer r .badArgument [] s))
    ∧ (∀ (n : CaptureNo) (select : EdgeSelect) (axes : AxisSet) (target : Option (AxisNo × Word16)),
      (arg8 r.args 0).toNat = n.val → edgeSelectOf (arg8 r.args 1) = some select → (arg8 r.args 2).toNat ≤ 63 →
      (arg8 r.args 3).toNat = axes.toNat → releaseTargetOf r.args = some target →
      exec .configureCapture s = .next (answer r .ok []
        ((s.setCaptureLine n
          { s.captureLine n with
            select := select, depth := (arg8 r.args 2).toNat, axes := axes, holdoff := (arg16 r.args 4).toNat,
            release := target, holdoffEnd := none }).setCaptureFilter n { s.captureFilter n with run := 0 }))))
  ∧ (∀ args : List Byte,
      (arg8 args 6 = 0 → releaseTargetOf args = some none)
      ∧ (arg8 args 6 ≠ 0 → 3 < (arg8 args 7).toNat → releaseTargetOf args = none)
      ∧ (∀ a : AxisNo, arg8 args 6 ≠ 0 → (arg8 args 7).toNat = a.val → releaseTargetOf args = some (some (a, arg16 args 8))))

/-- R84: the timebase rises by 1 each microsecond, with its wrap, and nothing else moves it but a reset. That a tick closes
twenty clock periods, those without a SAMPLE passing like samples at which no level changes, is the model's (log entry 4): what the
sample before has handed on is taken (R48), a request that is due starts (log entry 15) and RXD stays as it was (log entry 30). -/
def Obligations.TheTimebaseCountsMicroseconds : Prop :=
  (∀ s : State, Running s → ∃ t, exec .timebaseTick s = .next t ∧ t.timebase = s.timebase + 1
    ∧ t.timebase.toNat = (s.timebase.toNat + 1) % 4294967296
    ∧ t.clock = max s.clock (s.tickedAt + 20) ∧ t.tickedAt = t.clock
    ∧ { t with timebase := s.timebase, tickedAt := s.tickedAt } = passPeriods (s.tickedAt + 20 - s.clock) s
    ∧ (s.waiting = [] → s.line.level = none →
      t.handler = (if s.clock < s.tickedAt + 20 then s.handler.startNext else s.handler)
      ∧ { t with timebase := s.timebase, clock := s.clock, tickedAt := s.tickedAt, handler := s.handler } = s))
  ∧ (∀ (s settled : State) (rxd : Option Bool), settled = settle s.work s →
      passPeriods 0 s = s ∧ (∀ n, passPeriods (n + 1) s = passPeriods n (passPeriod none s))
      ∧ passPeriod rxd s = { settled with
          clock := settled.clock + 1, handler := settled.handler.startNext
          line := settled.line.hear settled.rx.broken (bitPeriods settled.straps) (settled.clock + 1) rxd })
  ∧ (∀ (c : Instr) (s t : State), exec c s = .next t → c ≠ .timebaseTick → (∀ x, c ≠ .powerOn x) → c ≠ .resetPin →
    (∀ x, c ≠ .resetPinRelease x) → (∀ x, c ≠ .frameCompletion x) → t.timebase = s.timebase)

/-! ## Records, the filter and the tally units (chapter 5) -/

/-- R85, R88: a record handed on is stamped with the timebase, offered to the report queue when the verdict on it is DELIVER,
and then gives the tally unit named its increment, whose TALLY record follows it; only the reports change. R93, R94: what the filter
reads of a record of each kind (5.2): its kind, its axis, which a CAPTURE has none of, its key and its flags. -/
def Obligations.RecordsAreFormed : Prop :=
  (∀ (s : State) (b : RecordBody) (v : View) (delivered : ReportQueue), b.view = some v →
    delivered = (if (judgeRecord s.reports.table v).1 = .deliver then
      s.reportQueue.offer { stamp := s.timebase, body := b } else s.reportQueue) →
    ((judgeRecord s.reports.table v).2 = none → s.formRecord b = s.setQueue delivered)
    ∧ (∀ u, (judgeRecord s.reports.table v).2 = some u →
      s.formRecord b = (s.setTallyUnit u (s.tallyUnit u).increment.1).setQueue
        (match (s.tallyUnit u).increment.2 with
         | none => delivered
         | some n => delivered.offer { stamp := s.timebase, body := .tally u .threshold n })))
  ∧ (∀ r : FireRecord, ∃ flags : BitVec 3,
      (RecordBody.fire r).view = some { kind := 0, axis := some r.axis, key := r.tag, flags := flags }
      ∧ flags.getLsbD 0 = r.skipped ∧ flags.getLsbD 1 = r.final ∧ flags.getLsbD 2 = r.outputBusy)
  ∧ (∀ line edge l released, ∃ key : Word16, key.toNat = line.val
      ∧ (RecordBody.capture line edge l released).view = some { kind := 1, axis := none, key := key, flags := 0 })
  ∧ (∀ a p drift corrected, (RecordBody.index a p drift corrected).view =
      some { kind := 2, axis := some a, key := 0, flags := 0 })
  ∧ (∀ a p d, (RecordBody.skip a p d).view = some { kind := 3, axis := some a, key := 0, flags := 0 })
  ∧ (∀ a k p, (RecordBody.fault a k p).view =
      some { kind := 4, axis := some a, flags := 0
             key := match k with | .quadJump => 1 | .hallJump => 2 | .hallInvalid => 3 | .indexDrift => 4 })
  ∧ (∀ a old new cause, (RecordBody.state a old new cause).view =
      some { kind := 5, axis := some a, flags := 0
             key := match new with | .disabled => 0 | .free => 1 | .seeking => 2 | .referenced => 3 | .faulted => 4 })
  ∧ (∀ u reason n, (RecordBody.tally u reason n).view = none) ∧ (∀ l, (RecordBody.gap l).view = none)

/-- R96, R97: when a record matches an entry; the lowest entry that it matches gives the verdict and the tally unit, and without
one the verdict is DELIVER and no unit is named. -/
def Obligations.TheFirstMatchJudges : Prop :=
  (∀ (e : FilterEntry) (v : View), e.matchesView v = true ↔
      e.enabled = true ∧ e.kinds.getLsbD v.kind = true
      ∧ (match v.axis with
         | some a => e.axes.getLsbD a.val = true
         | none => e.axes.getLsbD 4 = true)
      ∧ AgreesUnder e.keyMask v.key e.keyValue
      ∧ ∀ i, i < 3 → e.flagsMask.getLsbD i = true → v.flags.getLsbD i = e.flagsValue.getLsbD i)
  ∧ (∀ (table : Vector FilterEntry 16) (v : View),
      ((∀ i, (table.get i).matchesView v = false) → judgeRecord table v = (.deliver, none))
      ∧ (∀ i, (table.get i).matchesView v = true → (∀ j, j < i → (table.get j).matchesView v = false) →
        judgeRecord table v = ((table.get i).verdict, (table.get i).tally)))

/-- R99, R100: SET_FILTER replaces every field of the named entry, and READ_FILTER shows every field of it; a bad entry number,
and for SET_FILTER a bad field, is refused. R174, R175: when the fields of a filter entry are good, and which entry they then give. -/
def Obligations.FilterRequestsAreTaken : Prop :=
  (∀ (s : State) (r : Request), Executing .setFilter r s →
    (15 < (arg8 r.args 0).toNat ∨ filterEntryOf r.args = none → exec .setFilter s = .next (answer r .badArgument [] s))
    ∧ (∀ (e : EntryNo) (f : FilterEntry), (arg8 r.args 0).toNat = e.val → filterEntryOf r.args = some f →
      exec .setFilter s = .next (answer r .ok [] (s.setFilterEntry e f))))
  ∧ (∀ (s : State) (r : Request), Executing .readFilter r s →
    (15 < (arg8 r.args 0).toNat → exec .readFilter s = .next (answer r .badArgument [] s))
    ∧ (∀ e : EntryNo, (arg8 r.args 0).toNat = e.val →
      exec .readFilter s = .next (answer r .ok (s.filterEntry e).bytes s)))
  ∧ (∀ l : List Byte,
    ((filterEntryOf l).isSome = true ↔
      (arg8 l 1).toNat ≤ 1 ∧ (arg8 l 2).toNat < 64 ∧ (arg8 l 3).toNat < 32 ∧ (arg8 l 8).toNat < 8 ∧ (arg8 l 9).toNat < 8
      ∧ (∀ i, (arg8 l 9).getLsbD i = true → (arg8 l 8).getLsbD i = true) ∧ (arg8 l 10).toNat ≤ 1
      ∧ (arg8 l 11 = 0 ∨ (arg8 l 12).toNat ≤ 7))
    ∧ ∀ f, filterEntryOf l = some f →
      onOff f.enabled = arg8 l 1 ∧ byte8 f.kinds.toNat = arg8 l 2 ∧ byte8 f.axes.toNat = arg8 l 3 ∧ f.keyValue = arg16 l 4
      ∧ f.keyMask = arg16 l 6 ∧ byte8 f.flagsMask.toNat = arg8 l 8 ∧ byte8 f.flagsValue.toNat = arg8 l 9
      ∧ f.verdict.code = arg8 l 10
      ∧ f.tally.map (fun u => byte8 u.val) = if arg8 l 11 = 0 then none else some (arg8 l 12))

/-- R102, R103, R104: an increment counts up to 4 294 967 295 in every mode but OFF; at the threshold ONCE turns OFF and RESTART
counts from 0 again, and either gives the count for its TALLY record. -/
def Obligations.TallyUnitsCount : Prop :=
  ∀ (t : TallyUnit) (n : Nat), n = (if t.count < 4294967295 then t.count + 1 else t.count) →
    (t.mode = .off → t.increment = (t, none))
    ∧ (t.mode = .window → t.increment = ({ t with count := n }, none))
    ∧ (t.mode = .once → t.increment =
        if n = t.threshold then ({ t with count := n, mode := .off }, some n) else ({ t with count := n }, none))
    ∧ (t.mode = .restart → t.increment =
        if n = t.threshold then ({ t with count := 0 }, some n) else ({ t with count := n }, none))

/-- R105 to R108: a window's expiry, CONFIGURE_TALLY and READ_TALLY with their checks. Moments are counted in clock periods,
and an expiry before its moment does nothing (log entry 4); the next window is counted from the end of the one before (log entry
26). -/
def Obligations.TallyWindowsAndRequests : Prop :=
  (∀ (s : State) (u : UnitNo) (t : TallyUnit) (stop : Nat), Running s → s.tallyUnit u = t → t.mode = .window →
    t.timer = some stop →
    exec (.tallyWindowExpiry u) s = .next
      (if stop ≤ s.clock then
        (s.setTallyUnit u { t with count := 0, timer := some (stop + t.window * 20000) }).setQueue
          (s.reportQueue.offer { stamp := s.timebase, body := .tally u .window t.count })
       else s))
  ∧ (∀ (s : State) (r : Request),
    (Executing .configureTally r s → 7 < (arg8 r.args 0).toNat ∨ 3 < (arg8 r.args 1).toNat →
      exec .configureTally s = .next (answer r .badArgument [] s))
    ∧ (Executing .readTally r s → 7 < (arg8 r.args 0).toNat ∨ 1 < (arg8 r.args 1).toNat →
      exec .readTally s = .next (answer r .badArgument [] s)))
  ∧ (∀ (s : State) (r : Request) (u : UnitNo) (mode : TallyMode) (threshold window : Nat), Executing .configureTally r s →
    (arg8 r.args 0).toNat = u.val → tallyModeOf (arg8 r.args 1) = some mode → (arg32 r.args 2).toNat = threshold →
    (arg16 r.args 6).toNat = window →
    exec .configureTally s = .next
      (if ((mode = .once ∨ mode = .restart) ∧ threshold = 0) ∨ (mode = .window ∧ window = 0) then answer r .badArgument [] s
       else answer r .ok [] (s.setTallyUnit u
        { mode := mode, count := 0, threshold := threshold, window := window
          timer := if mode = .window then some (s.clock + window * 20000) else none })))
  ∧ (∀ (s : State) (r : Request) (u : UnitNo) (clear : Bool), Executing .readTally r s → (arg8 r.args 0).toNat = u.val →
    (arg8 r.args 1).toNat = clear.toNat →
    exec .readTally s = .next (answer r .ok ((s.tallyUnit u).mode.code :: nat32 (s.tallyUnit u).count)
      (if clear then s.setTallyUnit u { s.tallyUnit u with count := 0 } else s)))

/-! ## The report queue (chapter 6) -/

/-- R112, R113: a record offered while the queue holds fewer than 192 entries is admitted as the newest, PENDING, with the next
sequence number; otherwise it is lost and counted in the one class of its kind, up to 65 535. -/
def Obligations.OffersAreAdmittedOrCounted : Prop :=
  ∀ (r : Record) (q : ReportQueue),
    (q.entries.length < 192 → q.offer r =
      { entries := q.entries ++ [{ record := r, seq := q.next, sends := 0, state := .pending }], next := q.next + 1,
        lost := q.lost })
    ∧ (192 ≤ q.entries.length → (∀ l, r.body ≠ .gap l) →
      (q.offer r).entries = q.entries ∧ (q.offer r).next = q.next
      ∧ (q.offer r).lost =
        match r.body with
        | .fire _ => { q.lost with fire := if q.lost.fire < 65535 then q.lost.fire + 1 else q.lost.fire }
        | .capture _ _ _ _ => { q.lost with capture := if q.lost.capture < 65535 then q.lost.capture + 1 else q.lost.capture }
        | _ => { q.lost with other := if q.lost.other < 65535 then q.lost.other + 1 else q.lost.other })

/-- R111, R115, R117, R119, R120, R121: what the queue's operations leave, on a numbered queue: a removal takes the old end and,
when it has taken an entry and the loss tally is not 0, admits the GAP record; a revert changes nothing but states. -/
def Obligations.QueueOperationsLeaveTheRest : Prop :=
  ∀ (q : ReportQueue) (stamp : Word32), q.entries.length ≤ 192 → Numbered q →
    (∀ k e, q.entries[k]? = some e →
      q.lookup e.seq = some e
      ∧ (q.lost = Loss.zero →
        q.removeThrough stamp e.seq = { q with entries := q.entries.drop (k + 1) }
        ∧ q.removeBefore stamp e.seq = { q with entries := q.entries.drop k })
      ∧ (q.lost ≠ Loss.zero →
        q.removeThrough stamp e.seq =
          { entries := q.entries.drop (k + 1)
              ++ [{ record := { stamp := stamp, body := .gap q.lost }, seq := q.next, sends := 0, state := .pending }]
            next := q.next + 1, lost := Loss.zero }
        ∧ (1 ≤ k → q.removeBefore stamp e.seq =
          { entries := q.entries.drop k
              ++ [{ record := { stamp := stamp, body := .gap q.lost }, seq := q.next, sends := 0, state := .pending }]
            next := q.next + 1, lost := Loss.zero })
        ∧ (k = 0 → q.removeBefore stamp e.seq = q)))
    ∧ (q.entries = [] → q.discardAll stamp = q)
    ∧ (q.entries ≠ [] → q.discardAll stamp =
      if q.lost = Loss.zero then { q with entries := [] }
      else
        { entries := [{ record := { stamp := stamp, body := .gap q.lost }, seq := q.next, sends := 0, state := .pending }]
          next := q.next + 1, lost := Loss.zero })
    ∧ (q.revert = { q with entries := q.entries.map fun e => { e with state := .pending } })

/-- R115, R124: no record that the queue holds leaves it, changes or changes place but at an ACK, a NAK, bytes of the host, an
OPEN_SESSION or a reset: every other command keeps the records held, in order, before those it adds. Bytes of the host come with a
sample or a tick too, by the level of RXD (log entry 30), when a character is on its way or due. -/
def Obligations.RecordsHeldStay : Prop :=
  ∀ (c : Instr) (s t : State), exec c s = .next t → (∀ x, c ≠ .powerOn x) → c ≠ .resetPin → (∀ x, c ≠ .resetPinRelease x) →
    (∀ x, c ≠ .frameCompletion x) → (∀ x, c ≠ .ackFrame x) → (∀ x, c ≠ .nakFrame x) → (∀ x, c ≠ .rxdByte x) →
    (∀ x, c ≠ .frameDiscard x) → c ≠ .gapTimerExpiry → c ≠ .openSession →
    (((∃ x y, c = .sample x y) ∨ c = .timebaseTick) → s.line.char = none ∧ s.line.due = none) →
    s.reportQueue.entries.map QueueEntry.record <+: t.reportQueue.entries.map QueueEntry.record

/-! ## The host link (chapter 7) -/

/-- R127: the check register starts at 0xFFFF, takes each byte on its upper eight bits and shifts it out by the polynomial
0x1021; its check value; a frame built with it passes and a changed check byte fails. -/
def Obligations.TheFrameCheckIsTheCrc : Prop :=
  crc [] = 0xFFFF
  ∧ (∀ (l : List Byte) (b : Byte), crc (l ++ [b]) =
      (List.range 8).foldl (fun (r : Word16) _ => if r.getLsbD 15 then (r <<< 1) ^^^ 0x1021 else r <<< 1)
        (crc l ^^^ (b.zeroExtend 16 <<< 8)))
  ∧ crc [0x31, 0x32, 0x33, 0x34, 0x35, 0x36, 0x37, 0x38, 0x39] = 0x29B1
  ∧ (∀ f : Frame, f.body.length ≤ 199 →
      f.bytes = 0x9C :: byte8 (f.body.length + 1) :: f.kind :: f.body
        ++ bytes16 (crc (byte8 (f.body.length + 1) :: f.kind :: f.body))
      ∧ ∀ hi lo, crcAgrees (byte8 (f.body.length + 1)) (f.kind :: f.body ++ [hi, lo]) = true ↔
          [hi, lo] = bytes16 (crc (byte8 (f.body.length + 1) :: f.kind :: f.body)))

/-- R125: the level of RXD makes a character: what a byte does to TXD, period by period, a receiver that waits takes as that
byte. A change from high to low is a leading edge, a start bit found high at its middle was noise, the bits are taken at their
middles, the least significant first, a stop bit found low makes a character error, and after one, as after a reset, no start bit is
taken until RXD has been high; while the break flag is set nothing is (R133). That the middle of 43 periods is the 21st is the
model's (log entry 30). R128: in HUNT, the bytes of a good frame taken one after another are that frame, the bytes of a frame that
R131 discards are that one, and those of a damaged frame are its discard (R129). That frames and their discards come as one command
is the model's (log entry 8). -/
def Obligations.BytesMakeTheirFrame : Prop :=
  (∀ (bit edge since : Nat) (b : Byte) (x : LineReceiver), 2 ≤ bit → x.level = some (true, since) → x.char = none →
    ∃ high, (List.range (10 * bit)).foldl (fun y k => y.follow false bit (edge + k) (characterLevel bit b k)) x =
      { level := some (true, high), char := none, due := some (.byte b, edge) })
  ∧ (∀ (bit now : Nat) (v : Bool) (x : LineReceiver) (level : Bool × Nat),
    level = (match x.level with | some (l, since) => if l = v then (l, since) else (v, now) | none => (v, now)) →
    x.follow true bit now v = { x with level := some level }
    ∧ (x.char = none → x.follow false bit now v =
      { x with level := some level
               char := if v = false ∧ x.level.map Prod.fst = some true then some { edge := now, samples := [] } else none })
    ∧ (∀ edge samples, x.char = some { edge := edge, samples := samples } →
      (now < edge + (samples.length * bit + bit / 2) → x.follow false bit now v = { x with level := some level })
      ∧ (edge + (samples.length * bit + bit / 2) ≤ now →
        (samples = [] → v = true → x.follow false bit now v = { x with level := some level, char := none })
        ∧ (samples.length < 9 → (samples = [] → v = false) → x.follow false bit now v =
          { x with level := some level, char := some { edge := edge, samples := samples ++ [v] } })
        ∧ (∀ b : Byte, samples = false :: (List.range 8).map b.getLsbD → x.follow false bit now v =
          { level := some level, char := none, due := some (if v then .byte b else .error, edge) }))))
  ∧ ∀ s : State, FrameMayCome s → s.line.due = none →
    (∀ tag code args, args.length ≤ 197 →
      execAll ((Frame.bytes { kind := 0x51, body := tag :: code :: args }).map Instr.rxdByte) s =
        exec (.requestFrame tag code args) s)
    ∧ (∀ n, execAll ((Frame.bytes { kind := 0x52, body := bytes16 n }).map Instr.rxdByte) s = exec (.ackFrame n) s)
    ∧ (∀ n, execAll ((Frame.bytes { kind := 0x53, body := bytes16 n }).map Instr.rxdByte) s = exec (.nakFrame n) s)
    ∧ (∀ kind body, (Instr.wrongKindFrame kind body).wellFormed = true →
      execAll ((Frame.bytes { kind := kind, body := body }).map Instr.rxdByte) s = exec (.wrongKindFrame kind body) s)
    ∧ (∀ held, damagedBytes held = true →
      execAll ((0x9C :: held).map Instr.rxdByte) s = exec (.frameDiscard (.damaged held)) s)

/-- R129: the judging of held bytes comes to its end: with more allowance than the model gives it, nothing changes. Bytes are
taken one after another: each, with all that its taking has judged again, before the next. -/
def Obligations.ReplayTakesEveryByte : Prop :=
  (∀ (bytes : List Byte) (s : State) (more : Nat), judgeBytes (judgeFuel s bytes + more) bytes s = receiveBytes bytes s)
  ∧ (∀ s : State, receiveBytes [] s = s)
  ∧ ∀ (b : Byte) (bytes : List Byte) (s : State), receiveBytes (b :: bytes) s = receiveBytes bytes (receiveBytes [b] s)

/-- R128: what one byte on RXD does in each receiver state, with the gap timer started afresh (R130); a byte in HUNT that is
no sync byte is discarded and not counted. R129, R131, R132: a LEN out of range, a second CRC byte with which the CRC fails, a
character error inside a frame, a frame whose last byte shows it damaged and a gap expiry without a start bit before it count one
discard and have the held bytes judged again; a second CRC byte with which it agrees hands the frame on by its kind; a good frame of
a wrong kind or length is heard and counted. Moments are counted in clock periods, and an expiry before its moment does nothing (log
entry 4); a gap is counted from the taking of a byte (log entry 26); characters and frames come by command while RXD has not been
seen (log entry 8). -/
def Obligations.BytesAreHeldOrDiscarded : Prop :=
  (∀ (s u : State) (b : Byte) (gap : Option Nat), CharacterMayCome (.byte b) s → gap = some (s.clock + 40000) →
      u = s.setLine { s.line with due := none } →
      (s.rx.state = .hunt → exec (.rxdByte b) s = .next
        (if b = 0x9C then u.setRx { s.rx with state := .length, held := [], gap := gap } else u))
      ∧ (s.rx.state = .length → 1 ≤ b.toNat → b.toNat ≤ 200 → exec (.rxdByte b) s = .next
          (u.setRx { s.rx with state := .body, held := [b], gap := gap }))
      ∧ (s.rx.state = .length → b.toNat = 0 ∨ 200 < b.toNat → exec (.rxdByte b) s = .next
          (u.setRx { s.rx with state := .hunt, held := [], gap := none }).countDiscard)
      ∧ (∀ len rest, s.rx.state = .body → s.rx.held = len :: rest → exec (.rxdByte b) s = .next
          (u.setRx { s.rx with
            state := if rest.length + 1 = len.toNat then .check else .body, held := len :: rest ++ [b], gap := gap }))
      ∧ (∀ len rest, s.rx.state = .check → s.rx.held = len :: rest → rest.length = len.toNat → exec (.rxdByte b) s = .next
          (u.setRx { s.rx with state := .check, held := len :: rest ++ [b], gap := gap }))
      ∧ (∀ len kind body hi, s.rx.state = .check → s.rx.held = len :: kind :: body ++ [hi] → body.length + 1 = len.toNat →
        (hi ++ b = crc (len :: kind :: body) → exec (.rxdByte b) s = .next
          (routeFrame { kind := kind, body := body } (u.setRx { s.rx with state := .hunt, held := [], gap := none })))
        ∧ (hi ++ b ≠ crc (len :: kind :: body) → exec (.rxdByte b) s = .next
          (receiveBytes (len :: kind :: body ++ [hi, b]) (u.setRx
            { s.rx with state := .hunt, held := [], gap := none, discarded := raise16 s.rx.discarded })))))
  ∧ (∀ (s heard : State) (f : Frame), heard = hostHeard s →
      (wrongKind f = true → routeFrame f s = heard.countDiscard)
      ∧ (∀ tag code args, f = { kind := 0x51, body := tag :: code :: args } → routeFrame f s = acceptRequest tag code args heard)
      ∧ (∀ hi lo, f = { kind := 0x52, body := [hi, lo] } → routeFrame f s = takeAck (hi ++ lo) heard)
      ∧ (∀ hi lo, f = { kind := 0x53, body := [hi, lo] } → routeFrame f s = takeNak (hi ++ lo) heard)
      ∧ (wrongKind f = true ↔
        (f.kind = 0x51 ∧ f.body.length < 2) ∨ ((f.kind = 0x52 ∨ f.kind = 0x53) ∧ f.body.length ≠ 2)
          ∨ (f.kind ≠ 0x51 ∧ f.kind ≠ 0x52 ∧ f.kind ≠ 0x53)))
  ∧ (∀ s u : State, CharacterMayCome .error s → u = s.setLine { s.line with due := none } →
      (s.rx.state ≠ .hunt → exec (.frameDiscard .characterError) s = .next
          (receiveBytes s.rx.held (u.setRx
            { s.rx with state := .hunt, held := [], gap := none, discarded := raise16 s.rx.discarded })))
      ∧ (s.rx.state = .hunt → exec (.frameDiscard .characterError) s = .next u))
  ∧ (∀ s : State, FrameMayCome s →
      (∀ held, damagedBytes held = true → exec (.frameDiscard (.damaged held)) s = .next
          (receiveBytes held (s.setRx
            { s.rx with state := .hunt, held := [], gap := none, discarded := raise16 s.rx.discarded })))
      ∧ (∀ kind body, wrongKind { kind := kind, body := body } = true → exec (.wrongKindFrame kind body) s = .next
          ((hostHeard (s.setRx { s.rx with state := .hunt, held := [], gap := none })).countDiscard)))
  ∧ (∀ (s : State) (stop : Nat), Running s → s.rx.state ≠ .hunt → s.rx.gap = some stop →
      (∀ c ∈ s.line.char, stop ≤ c.edge) → (∀ d ∈ s.line.due, stop ≤ d.2) →
      exec .gapTimerExpiry s = .next
        (if stop ≤ s.clock then
          receiveBytes s.rx.held (s.setRx
            { s.rx with state := .hunt, held := [], gap := none, discarded := raise16 s.rx.discarded })
         else s))
  ∧ (∀ s : State, s.countDiscard.rx.discarded = if s.rx.discarded < 65535 then s.rx.discarded + 1 else s.rx.discarded)

/-- R34, R133, R134, R140, R158, R170, R68, R69, R76, R109: a line break leaves the machine side as it stands but for the
SEEKING axes, which become FREE, each with its STATE record of cause LINK_BREAK; it empties the receiver, the transmitter, which
finishes its current byte, and the request handler and closes the session, with every entry of the report queue PENDING; the
records held stay. Its end forms the ANNOUNCE. The order of the STATE records is a free value (log entry 3); a break in LENGTH counts
a discard too (log entry 17). RXD must have stood at its level for 1 ms, in clock periods (log entry 4), as far as it has been
seen (log entry 8). -/
def Obligations.BreaksClearTheLink : Prop :=
  (∀ s : State, Running s → s.rx.broken = false → RxdHeld false s → ∃ t, exec .breakDetected s = .next t
    ∧ t.rx = { state := .hunt, held := [], gap := none, broken := true,
               discarded := if s.rx.state = .hunt then s.rx.discarded else raise16 s.rx.discarded }
    ∧ t.line = { level := s.line.level, char := none, due := none }
    ∧ t.tx.frame = none ∧ t.tx.announce = none ∧ (s.tx.frame = none → t.tx.tail = s.tx.tail)
    ∧ (∀ f byteTime k, s.tx.frame = some f → byteTime = 10 * bitPeriods s.straps → k = (s.clock - f.started) / byteTime →
      t.tx.tail = f.bytes[k]?.map fun b => (b, f.started + k * byteTime))
    ∧ t.handler = Handler.reset
    ∧ t.session = (if s.session.state = .closed then s.session
        else { s.session with state := .closed, retries := 0, ackTimer := none })
    ∧ (∀ a, t.axis a = if (s.axis a).state = .seeking then { s.axis a with state := .free, homing := none } else s.axis a)
    ∧ (∃ (order : List AxisNo) (formed : Reports),
      order.Perm (([0, 1, 2, 3] : List AxisNo).filter fun a => (s.axis a).state == .seeking)
      ∧ formed = order.foldl (fun r a => r.form s.timebase (.state a .seeking .free .linkBreak)) s.reports
      ∧ t.reports = if s.session.state = .closed then formed else { formed with queue := formed.queue.revert })
    ∧ (s.session.state ≠ .closed → t.reportQueue.outstanding = 0)
    ∧ s.reportQueue.entries.map QueueEntry.record <+: t.reportQueue.entries.map QueueEntry.record
    ∧ t.reports.table = s.reports.table
    ∧ { t with rx := s.rx, line := s.line, tx := s.tx, handler := s.handler, session := s.session, axes := s.axes,
               reports := s.reports, draws := s.draws } = s)
  ∧ (∀ s : State, Running s → s.rx.broken = true → RxdHeld true s → exec .breakEnd s = .next
      { s with rx := { s.rx with broken := false }, tx := { s.tx with announce := some .linkBreak } })
  ∧ (∀ (s : State) (c : Instr), Running s → s.rx.broken = true →
      c = .breakDetected ∨ (∃ b, c = .rxdByte b) ∨ (∃ x y z, c = .requestFrame x y z) ∨ (∃ n, c = .ackFrame n)
        ∨ (∃ n, c = .nakFrame n) ∨ (∃ x y, c = .wrongKindFrame x y) ∨ (∃ x, c = .frameDiscard x) ∨ c = .arbiterChoice →
      exec c s = .next s)

/-- R118, R136 to R139, R163: with no frame in progress and no break, the waiting ANNOUNCE starts, else the oldest completed
reply, else an allowed REPORT, whose entry is marked sent and which starts the ack timer when no entry was OUTSTANDING.
Moments are counted in clock periods (log entry 4). -/
def Obligations.TheArbiterChoosesInOrder : Prop :=
  ∀ s : State, Running s → s.tx.frame = none → s.rx.broken = false →
    (∀ cause, s.tx.announce = some cause → exec .arbiterChoice s = .next
      { s with tx :=
          { frame := some
              { source := .announce, started := s.clock
                bytes := Frame.bytes
                  { kind := 0xA3, body := [cause.code, 0x46, 1] ++ bytes16 s.reportQueue.oldest
                      ++ [byte8 s.reportQueue.entries.length] } }
            announce := none, tail := none } })
    ∧ (∀ i rest r, s.tx.announce = none → s.handler.order = i :: rest → s.handler.slots.get i = .completed r →
      exec .arbiterChoice s = .next
        { s with tx :=
            { s.tx with
              frame := some
                { source := .reply i, started := s.clock
                  bytes := Frame.bytes { kind := 0xA1, body := [r.tag, r.code, r.status.code] ++ r.results } }
              tail := none } })
    ∧ (∀ old e new, s.tx.announce = none → s.handler.order = [] → s.session.state = .opened →
      s.reportQueue.outstanding < s.session.window → s.reportQueue.entries = old ++ e :: new →
      (∀ x ∈ old, x.state = .outstanding) → e.state = .pending →
      ∃ sent : QueueEntry,
        sent = { e with state := .outstanding, sends := if e.sends < 255 then e.sends + 1 else e.sends }
        ∧ exec .arbiterChoice s = .next
          (((s.setQueue { s.reportQueue with entries := old ++ sent :: new }).setSession
            { s.session with
              ackTimer := if s.reportQueue.outstanding = 0 then some (s.clock + s.session.ackTimeout * 20000)
                else s.session.ackTimer }).startFrame .report
            { kind := 0xA2, body := bytes16 e.seq ++ [byte8 sent.sends] ++ e.record.bytes }))
    ∧ (s.tx.announce = none → s.handler.order = [] →
      (s.session.state ≠ .opened ∨ s.session.window ≤ s.reportQueue.outstanding
        ∨ ∀ e ∈ s.reportQueue.entries, e.state = .outstanding) → exec .arbiterChoice s = .next s)

/-- R135, R137, R163: a frame is complete when the stop bit of its last byte ends, and not before: a reply frees its slot, while
a RESET_DEVICE waits for its own too, and a REPORT starts the ack timer afresh while entries are OUTSTANDING. R125, R126: the clock
periods of a bit at each strap setting, and the level of TXD while a frame is sent, while the byte that a break lets go out is, and
between frames (log entry 21). Moments are counted in clock periods, and an expiry before its moment does nothing (log entry 4). -/
def Obligations.FramesComplete : Prop :=
  (∀ (s : State) (straps : BitVec 2) (f : Sending), Running s → s.tx.frame = some f →
    (s.clock < f.started + f.bytes.length * (10 * bitPeriods s.straps) → exec (.frameCompletion straps) s = .next s)
    ∧ (f.started + f.bytes.length * (10 * bitPeriods s.straps) ≤ s.clock →
      (f.source = .announce → exec (.frameCompletion straps) s = .next { s with tx := { s.tx with frame := none } })
      ∧ (f.source = .report → exec (.frameCompletion straps) s = .next
        { s with
          tx := { s.tx with frame := none }
          session :=
            if s.reportQueue.outstanding = 0 then s.session
            else { s.session with ackTimer := some (s.clock + s.session.ackTimeout * 20000) } })
      ∧ (∀ i, f.source = .reply i →
        s.handler.mode = .taking ∨ (∀ r, s.handler.slots.get i = .completed r → r.code ≠ 0x61 ∨ r.status ≠ .ok) →
        exec (.frameCompletion straps) s = .next
          { s with
            tx := { s.tx with frame := none }
            handler := { s.handler with slots := s.handler.slots.set i.val .free i.isLt, order := s.handler.order.erase i } })))
  ∧ (bitPeriods 0b00 = 174 ∧ bitPeriods 0b01 = 43 ∧ bitPeriods 0b10 = 22 ∧ bitPeriods 0b11 = 10)
  ∧ (∀ (s : State) (b : Byte) (bit since : Nat), Running s → bit = bitPeriods s.straps →
      ((∃ f k, s.tx.frame = some f ∧ f.bytes[k]? = some b ∧ s.clock = f.started + k * (10 * bit) + since ∧ since < 10 * bit)
        ∨ (s.tx.frame = none ∧ ∃ start, s.tx.tail = some (b, start) ∧ s.clock = start + since)) →
      (since < bit → s.txdPin = false)
      ∧ (∀ j, j < 8 → (j + 1) * bit ≤ since → since < (j + 2) * bit → s.txdPin = b.getLsbD j)
      ∧ (9 * bit ≤ since → s.txdPin = true))
  ∧ (∀ s : State, s.resetLow = true ∨ (s.tx.frame = none ∧ s.tx.tail = none) → s.txdPin = true)

/-! ## Requests and replies (chapter 8) -/

/-- R131, R143, R144, R166: a good REQUEST is heard, and then accepted, answered QUEUE_FULL at once, or dropped, by the mode,
the queue and the slots as they stand, whatever its code and arguments. When it finds the queue full and the start of the oldest
queued request due, either is taken first, and a free value says which (log entry 15). Which free slot is taken is the model's
choice (log entry 13). That the command is a frame completed at once is the model's (log entry 8). -/
def Obligations.RequestFramesAreJudged : Prop :=
  ∀ (s heard : State) (tag code : Byte) (args : List Byte), FrameMayCome s →
    heard = { s with
      rx := { s.rx with state := .hunt, held := [], gap := none }
      session := if s.session.state = .stalled then { s.session with state := .opened, retries := 0 } else s.session } →
    (s.handler.mode = .resetPending → exec (.requestFrame tag code args) s = .next heard)
    ∧ (s.handler.mode = .taking → (∀ i, s.handler.slots.get i ≠ .free) →
      exec (.requestFrame tag code args) s = .next heard.countDiscard)
    ∧ (∀ i, s.handler.mode = .taking → s.handler.slots.get i = .free → (∀ j, j < i → s.handler.slots.get j ≠ .free) →
      (s.handler.queue.length < 4 →
        exec (.requestFrame tag code args) s = .next (heard.setHandler (Handler.startNext
          { s.handler with
            slots := s.handler.slots.set i.val (.reserved tag code) i.isLt
            queue := s.handler.queue ++ [{ tag := tag, code := code, args := args, slot := i }] })))
      ∧ (4 ≤ s.handler.queue.length → s.handler.executing ≠ none →
        exec (.requestFrame tag code args) s = .next (heard.setHandler
          { s.handler with
            slots := s.handler.slots.set i.val
              (.completed { tag := tag, code := code, status := .queueFull, results := [] }) i.isLt
            order := s.handler.order ++ [i] }))
      ∧ (∀ first rest, s.handler.queue = first :: rest → rest.length = 3 → s.handler.executing = none →
        ∃ startFirst : Bool, exec (.requestFrame tag code args) s = .next (State.setHandler { heard with draws := s.draws + 1 }
          (if startFirst then
            { s.handler with
              executing := some first
              slots := s.handler.slots.set i.val (.reserved tag code) i.isLt
              queue := rest ++ [{ tag := tag, code := code, args := args, slot := i }] }
           else
            { s.handler with
              slots := s.handler.slots.set i.val
                (.completed { tag := tag, code := code, status := .queueFull, results := [] }) i.isLt
              order := s.handler.order ++ [i] }))))

/-- R145, R147, R148, R149: what completing a reply, deferring a request and ending a deferred request leave: the slot, the
completion order, the deferred table, and no request in execution. Nothing outside the request handler changes. The oldest queued
request then starts when none is executing and the mode is TAKING; that the model takes the start with the command that executes the
request, or when a clock period has passed, is its choice (log entry 15). -/
def Obligations.RepliesAreCompleted : Prop :=
  (∀ (h : Handler), h.mode = .taking → h.executing = none →
    (h.queue = [] → h.startNext = h)
    ∧ (∀ r rest, h.queue = r :: rest → h.startNext = { h with executing := some r, queue := rest }))
  ∧ (∀ h : Handler, h.mode = .resetPending ∨ h.executing ≠ none → h.startNext = h)
  ∧ (∀ (s : State) (r : Request), Running s → s.handler.startNext.executing = some r →
    (∀ n, requestOf r.code = some n → exec n.command s = exec n.command (s.setHandler s.handler.startNext))
    ∧ (requestOf r.code = none → exec .unknownRequest s = exec .unknownRequest (s.setHandler s.handler.startNext)))
  ∧ (∀ (r : Request) (st : Status) (results : List Byte) (s : State),
    answer r st results s = { s with handler := { s.handler with
        slots := s.handler.slots.set r.slot.val
          (.completed { tag := r.tag, code := r.code, status := st, results := results }) r.slot.isLt
        order := s.handler.order ++ [r.slot]
        executing := none } })
  ∧ (∀ (r : Request) (kind : DeferredKind) (s : State),
    deferRequest r kind s = { s with handler := { s.handler with
        slots := s.handler.slots.set r.slot.val (.deferred r.tag r.code) r.slot.isLt
        table := s.handler.table ++ [{ kind := kind, tag := r.tag, code := r.code, slot := r.slot }]
        executing := none } })
  ∧ (∀ (i : SlotNo) (st : Status) (results : List Byte) (s : State) (d : Deferred) (before after : List Deferred),
    s.handler.table = before ++ d :: after → d.slot = i → (∀ x ∈ before ++ after, x.slot ≠ i) →
    endDeferred i st results s = { s with handler :=
      { s.handler with
        slots := s.handler.slots.set i.val
          (.completed { tag := d.tag, code := d.code, status := st, results := results }) i.isLt
        order := s.handler.order ++ [i]
        table := before ++ after } })
  ∧ (∀ (i : SlotNo) (st : Status) (results : List Byte) (s : State), (∀ x ∈ s.handler.table, x.slot ≠ i) →
    endDeferred i st results s = s)

/-- R145, R146, R148: every request that is executed is answered, under its tag and code, or deferred, and only HOME and DRAIN
are deferred. A request that its block cannot take yet stays as it is (R41, R48, log entry 29). -/
def Obligations.EveryRequestIsAnsweredOrDeferred : Prop :=
  ∀ (n : RequestName) (r : Request) (s t : State), Running s → s.handler.executing = some r → requestOf r.code = some n →
    exec n.command s = .next t →
    (∃ st results, t.handler.slots.get r.slot = .completed { tag := r.tag, code := r.code, status := st, results := results })
    ∨ ((n = .home ∨ n = .drain) ∧ t.handler.slots.get r.slot = .deferred r.tag r.code
      ∧ ∃ d ∈ t.handler.table, d.slot = r.slot ∧ d.tag = r.tag ∧ d.code = r.code)
    ∨ (t = s ∧ ∃ a : AxisNo, (arg8 r.args 0).toNat = a.val
      ∧ ((n = .queryAxis ∧ (s.decoder a).results ≠ [])
        ∨ ((n = .configureAxis ∨ n = .enableAxis ∨ n = .setPosition) ∧ (s.axis a).arrival.isSome)))

/-- R146: a request refused at any check, by the handler or by the owning block, changes no state: nothing happens but its
reply. -/
def Obligations.RefusedRequestsChangeNothing : Prop :=
  ∀ (n : RequestName) (r : Request) (s t : State) (reply : Reply), Running s → s.handler.executing = some r →
    s.handler.slots.get r.slot = .reserved r.tag r.code → requestOf r.code = some n → exec n.command s = .next t →
    t.handler.slots.get r.slot = .completed reply → reply.status.refuses = true → t = answer r reply.status reply.results s

/-- R146, R172, R173: the handler's own checks: a code that names no request, arguments of the wrong length or with a bad
presence byte, and an axis that does not exist. The request codes; when the arguments of each request are of the length its layout
calls for, cut short, too long, or stopped at a presence byte that is neither 0 nor 1. That a bad presence byte's refusal of
ADD_MARKS carries the free count is deduced (log entry 14). -/
def Obligations.TheHandlerJudgesFirst : Prop :=
  (∀ (s : State) (r : Request), Running s → s.handler.executing = some r →
    (requestOf r.code = none → exec .unknownRequest s = .next (answer r .unknownRequest [] s))
    ∧ (∀ n, requestOf r.code = some n →
      (n.lengthFault r.args = some .badLength → exec n.command s = .next (answer r .badLength [] s))
      ∧ (n.lengthFault r.args = some .badArgument → exec n.command s = .next
          (answer r .badArgument (if n = .addMarks then [byte8 s.freeCount] else []) s))
      ∧ (n.lengthFault r.args = none →
        n ∈ [RequestName.configureAxis, .enableAxis, .disableAxis, .clearFault, .setPosition, .queryAxis, .home] →
        3 < (arg8 r.args 0).toNat → exec n.command s = .next (answer r .badArgument [] s))))
  ∧ (∀ (code : Byte) (n : RequestName), requestOf code = some n ↔
      (code, n) ∈ [((0x01 : Byte), RequestName.identify), (0x02, .status), (0x03, .time), (0x10, .configureAxis),
        (0x11, .enableAxis), (0x12, .disableAxis), (0x13, .clearFault), (0x14, .setPosition), (0x15, .queryAxis), (0x16, .home),
        (0x20, .addMarks), (0x21, .removeMarks), (0x22, .releaseMarks), (0x23, .listMarks), (0x30, .configureOutput),
        (0x31, .pulseOutput), (0x32, .configureCapture), (0x40, .setFilter), (0x41, .readFilter), (0x42, .configureTally),
        (0x43, .readTally), (0x50, .openSession), (0x51, .closeSession), (0x52, .drain), (0x60, .abort), (0x61, .resetDevice)])
  ∧ (∀ x ∈ [(RequestName.identify, 0), (.status, 1), (.time, 0), (.configureAxis, 24), (.enableAxis, 5), (.disableAxis, 1),
        (.clearFault, 1), (.setPosition, 6), (.queryAxis, 1), (.home, 2), (.removeMarks, 6), (.releaseMarks, 5), (.listMarks, 3),
        (.configureOutput, 6), (.pulseOutput, 1), (.readFilter, 1), (.configureTally, 8), (.readTally, 2), (.openSession, 5),
        (.closeSession, 0), (.drain, 2), (.abort, 1), (.resetDevice, 0)],
      ∀ args : List Byte, x.1.lengthFault args = if args.length = x.2 then none else some .badLength)
  ∧ (∀ x ∈ [(RequestName.configureCapture, 6, 3), (.setFilter, 11, 1)], ∀ args : List Byte,
      x.1.lengthFault args =
        if args.length ≤ x.2.1 then some .badLength
        else if 1 < (arg8 args x.2.1).toNat then some .badArgument
        else if args.length = x.2.1 + 1 + (arg8 args x.2.1).toNat * x.2.2 then none else some .badLength)
  ∧ (∀ args : List Byte, args.length < 3 → RequestName.addMarks.lengthFault args = some .badLength)
  ∧ (∀ (a b : Byte) (rest : List Byte), RequestName.addMarks.lengthFault (a :: b :: 0 :: rest) =
      if rest = [] then none else some .badLength)
  ∧ (∀ (a b n report : Byte) (head rest : List Byte) (fields : List (Option (List Byte))), n ≠ 0 → head.length = 7 →
      fields.length = 5 → (∀ x ∈ fields.zip [2, 4, 1, 1, 3], ∀ l ∈ x.1, l.length = x.2) →
      RequestName.addMarks.lengthFault (a :: b :: n :: (head ++ fields.flatMap optionalBytes ++ report :: rest)) =
          RequestName.addMarks.lengthFault (a :: b :: (n - 1) :: rest)
      ∧ (∀ k, k < (head ++ fields.flatMap optionalBytes ++ [report]).length →
        RequestName.addMarks.lengthFault (a :: b :: n :: (head ++ fields.flatMap optionalBytes ++ [report]).take k) =
          some .badLength)
      ∧ (∀ j presence, j < 5 → 1 < presence.toNat →
        RequestName.addMarks.lengthFault (a :: b :: n :: (head ++ (fields.take j).flatMap optionalBytes ++ presence :: rest)) =
          some .badArgument))

/-- R86, R150, R151, R154, R156: IDENTIFY, STATUS, TIME, RESET_DEVICE, and ABORT: it ends every deferred request of its tag, in
the order of the table; a DRAIN is answered with the queue count, a HOME takes its axis from SEEKING to FREE. -/
def Obligations.GeneralRequestsAreAnswered : Prop :=
  ∀ (s : State) (r : Request) (q : ReportQueue), s.reportQueue = q →
    (Executing .identify r s → exec .identify s = .next
      (answer r .ok [0x46, 1, 4, 8, 4, 240, 16, 8, 192, 4, 10, s.straps.zeroExtend 8] s))
    ∧ (Executing .time r s → exec .time s = .next (answer r .ok (bytes32 s.timebase) s))
    ∧ (Executing .status r s → 1 < (arg8 r.args 0).toNat → exec .status s = .next (answer r .badArgument [] s))
    ∧ (∀ clear : Bool, Executing .status r s → (arg8 r.args 0).toNat = clear.toNat → exec .status s = .next
      (answer r .ok
        ([s.session.state.code, byte8 s.session.window] ++ nat16 s.session.ackTimeout ++ [byte8 s.session.retryLimit]
          ++ [byte8 q.outstanding, byte8 q.entries.length] ++ bytes16 q.oldest ++ bytes16 q.next ++ nat16 q.lost.fire
          ++ nat16 q.lost.capture ++ nat16 q.lost.other ++ [byte8 s.freeCount] ++ nat16 s.rx.discarded
          ++ bytes32 s.timebase ++ [byte8 s.handler.table.length])
        (if clear then { s with rx := { s.rx with discarded := 0 } } else s)))
    ∧ (Executing .resetDevice r s → exec .resetDevice s = .next
      { s with handler :=
          { s.handler with
            mode := .resetPending, executing := none
            slots := s.handler.slots.set r.slot.val
              (.completed { tag := r.tag, code := r.code, status := .ok, results := [] }) r.slot.isLt
            order := s.handler.order ++ [r.slot] } })
    ∧ (Executing .abort r s → (∀ d ∈ s.handler.table, d.tag ≠ arg8 r.args 0) →
      exec .abort s = .next (answer r .noSuchRequest [] s))
    ∧ (∀ l, Executing .abort r s → (s.handler.table.map Deferred.slot).Nodup →
      l = s.handler.table.filter (fun d => d.tag == arg8 r.args 0) → l ≠ [] →
      ∃ t, exec .abort s = .next (answer r .ok [byte8 l.length] t)
        ∧ t.handler.table = s.handler.table.filter (fun d => d.tag != arg8 r.args 0)
        ∧ t.handler.order = s.handler.order ++ l.map Deferred.slot
        ∧ ∀ d ∈ l, ∃ reply, t.handler.slots.get d.slot = .completed reply ∧ reply.tag = d.tag ∧ reply.status = .aborted)
    ∧ (∀ d before after, Executing .abort r s → s.handler.table = before ++ d :: after → d.tag = arg8 r.args 0 →
      (∀ x ∈ before ++ after, x.tag ≠ arg8 r.args 0) →
      (d.isDrain = true → exec .abort s = .next
        (answer r .ok [1] (endDeferred d.slot .aborted [byte8 q.entries.length] s)))
      ∧ (∀ a, d.kind = .home a → (s.axis a).state = .seeking → exec .abort s = .next
        (answer r .ok [1] (endDeferred d.slot .aborted []
          ((s.setAxis a { s.axis a with state := .free, homing := none }).formRecord
            (.state a .seeking .free .request))))))

/-! ## Sessions (chapter 9) -/

/-- R163, R164, R165, R166: an ACK and a NAK that are valid, with the empty event when the queue is left without an entry
(R122), and ones that are not. Moments are counted in clock periods (log entry 4). That an ACK or NAK command is a frame
completed at once is the model's (log entry 8). -/
def Obligations.AcksAndNaksAreJudged : Prop :=
  ∀ (s heard : State) (n : Word16) (q : ReportQueue), FrameMayCome s → s.reportQueue = q →
    heard = { s with
      rx := { s.rx with state := .hunt, held := [], gap := none }
      session := if s.session.state = .stalled then { s.session with state := .opened, retries := 0 } else s.session } →
    ((s.session.state = .closed ∨ q.lookup n = none ∨ ∃ e, q.lookup n = some e ∧ e.sends = 0) →
      exec (.ackFrame n) s = .next heard ∧ exec (.nakFrame n) s = .next heard)
    ∧ (∀ e, s.session.state ≠ .closed → q.lookup n = some e → 1 ≤ e.sends →
      ∃ acked naked : State,
        acked = (heard.setQueue (q.removeThrough s.timebase n)).setSession
          { heard.session with
            retries := 0
            ackTimer := if (q.removeThrough s.timebase n).outstanding = 0 then none
              else some (s.clock + s.session.ackTimeout * 20000) }
        ∧ exec (.ackFrame n) s = .next
          (if (q.removeThrough s.timebase n).entries = [] then emptyEvent acked else acked)
        ∧ naked = (heard.setQueue (q.removeBefore s.timebase n).revert).setSession
          { heard.session with retries := 0, ackTimer := none }
        ∧ exec (.nakFrame n) s = .next naked)

/-- R152, R161, R169, R170: OPEN_SESSION, CLOSE_SESSION and DRAIN and their checks in order. Moments are counted in clock
periods (log entry 4). -/
def Obligations.SessionRequestsAreJudged : Prop :=
  ∀ (s : State) (r : Request) (q : ReportQueue), s.reportQueue = q →
    (∀ w timeout retry, Executing .openSession r s → (arg8 r.args 0).toNat = w → (arg16 r.args 1).toNat = timeout →
      (arg8 r.args 3).toNat = retry →
      (s.session.state ≠ .closed → exec .openSession s = .next (answer r .wrongState [] s))
      ∧ (s.session.state = .closed →
        16 < w ∨ (timeout ≠ 0 ∧ timeout < 10) ∨ 2000 < timeout ∨ 15 < retry ∨ 1 < (arg8 r.args 4).toNat →
        exec .openSession s = .next (answer r .badArgument [] s))
      ∧ (∀ opened, s.session.state = .closed → w ≤ 16 → (timeout = 0 ∨ (10 ≤ timeout ∧ timeout ≤ 2000)) → retry ≤ 15 →
        opened = s.setSession
          { state := .opened, window := if w = 0 then 4 else w, ackTimeout := if timeout = 0 then 100 else timeout,
            retryLimit := if retry = 0 then 4 else retry, retries := 0, ackTimer := none } →
        (arg8 r.args 4 = 0 → exec .openSession s = .next
          (answer r .ok (bytes16 q.oldest ++ [byte8 q.entries.length, 0]) opened))
        ∧ (arg8 r.args 4 = 1 → s.handler.drain = none → exec .openSession s = .next
          (answer r .ok
            (bytes16 (q.discardAll s.timebase).oldest
              ++ [byte8 (q.discardAll s.timebase).entries.length, byte8 q.entries.length])
            (opened.setQueue (q.discardAll s.timebase))))))
    ∧ (Executing .closeSession r s →
      (s.session.state = .closed → exec .closeSession s = .next
        (answer r .ok (bytes16 q.oldest ++ [byte8 q.entries.length]) s))
      ∧ (∀ closed, s.session.state ≠ .closed →
        closed = (s.setQueue q.revert).setSession { s.session with state := .closed, retries := 0, ackTimer := none } →
        exec .closeSession s = .next (answer r .ok (bytes16 q.oldest ++ [byte8 q.entries.length])
          (match s.handler.table.find? Deferred.isDrain with
           | none => closed
           | some d => endDeferred d.slot .interrupted [byte8 q.entries.length] closed))))
    ∧ (∀ limit, Executing .drain r s → (arg16 r.args 0).toNat = limit → exec .drain s = .next
      (if limit = 0 then answer r .badArgument [] s
       else if s.session.state = .closed then answer r .wrongState [] s
       else if s.handler.table.any Deferred.isDrain then answer r .busy [] s
       else if q.entries = [] then answer r .ok [0] s
       else deferRequest r (.drain limit (s.clock + limit * 20000)) s))

/-- R167: the expiry of the ack timer reverts the queue, raises the retry count and stalls the session above the limit; before
its time, or with the session not OPEN, nothing happens. R122, R153: the empty event and the drain timer end a deferred DRAIN
with the queue count; when both have come, a free value says which is taken first (log entry 12). Moments are counted in clock
periods, and an expiry before its moment does nothing (log entry 4). -/
def Obligations.DeliveryTimersExpire : Prop :=
  (∀ s : State, Running s →
      (∀ stop, s.session.state = .opened → s.session.ackTimer = some stop → stop ≤ s.clock →
        exec .ackTimerExpiry s = .next
          ((s.setQueue { s.reportQueue with entries := s.reportQueue.entries.map fun e => { e with state := .pending } }).setSession
            { s.session with
              retries := s.session.retries + 1, ackTimer := none
              state := if s.session.retries + 1 ≤ s.session.retryLimit then .opened else .stalled }))
      ∧ ((s.session.state ≠ .opened ∨ s.session.ackTimer = none ∨ ∃ stop, s.session.ackTimer = some stop ∧ s.clock < stop) →
        exec .ackTimerExpiry s = .next s))
  ∧ (∀ (s : State), (s.handler.table.find? Deferred.isDrain = none → emptyEvent s = s ∧ exec .drainTimerExpiry s = .next s)
      ∧ (∀ d limit deadline, s.handler.table.find? Deferred.isDrain = some d → d.kind = .drain limit deadline →
        (s.clock < deadline →
          emptyEvent s = endDeferred d.slot .ok [byte8 s.reportQueue.entries.length] s
          ∧ exec .drainTimerExpiry s = .next s)
        ∧ (deadline ≤ s.clock →
          (∃ st, (st = .ok ∨ st = .timedOut) ∧ emptyEvent s =
            endDeferred d.slot st [byte8 s.reportQueue.entries.length] { s with draws := s.draws + 1 })
          ∧ (Running s → exec .drainTimerExpiry s = .next
            (endDeferred d.slot .timedOut [byte8 s.reportQueue.entries.length] s)))))

/-! ## What every step keeps -/

/-- The account of delivery is kept by every step (R110, R111, R115, R118, R162, R163). -/
def Obligations.StepsKeepTheDeliveryAccount : Prop := ∀ s t : State, DeliveryOk s → step s = .next t → DeliveryOk t

/-- The account of the axes is kept by every step (R20, R22, R23, R24, R40). -/
def Obligations.StepsKeepTheAxes : Prop := ∀ s t : State, AxesOk s → step s = .next t → AxesOk t

/-- The account of the marks is kept by every step: the pool, the order of the lists and the content of the marks (R42, R43,
R44, R45). -/
def Obligations.StepsKeepTheMarks : Prop := ∀ s t : State, MarksOk s → step s = .next t → MarksOk t

/-- The account of the requests is kept by every step: the reply slots, the deferred table and the SEEKING axes (R30, R141,
R142, R148, R149). -/
def Obligations.StepsKeepTheRequests : Prop := ∀ s t : State, RequestsOk s → step s = .next t → RequestsOk t

/-- The tally units and the receiver, of characters and of frames, stay in order (R101, R103, R104, R125, R128). -/
def Obligations.StepsKeepTheUnits : Prop := ∀ s t : State, UnitsOk s → step s = .next t → UnitsOk t

/-- The state after reset is a safe state. -/
def Obligations.ResetIsSafe : Prop := SafeState State.reset
end

