-- ==== Sys2Proof/Laws/State.lean ====
section
/-!
SUPPORT. What each named update of the state leaves: one lemma for each field and each accessor, and the read after a write
for each instance. No later proof unfolds a record update.
-/

namespace Sys2Proof.Machine

variable (s : State)

/-! ## setAxis -/

@[simp] theorem State.setAxis_pending (a : AxisNo) (x : Axis) : (s.setAxis a x).pending = s.pending := rfl
@[simp] theorem State.setAxis_resetLow (a : AxisNo) (x : Axis) : (s.setAxis a x).resetLow = s.resetLow := rfl
@[simp] theorem State.setAxis_clock (a : AxisNo) (x : Axis) : (s.setAxis a x).clock = s.clock := rfl
@[simp] theorem State.setAxis_tickedAt (a : AxisNo) (x : Axis) : (s.setAxis a x).tickedAt = s.tickedAt := rfl
@[simp] theorem State.setAxis_draws (a : AxisNo) (x : Axis) : (s.setAxis a x).draws = s.draws := rfl
@[simp] theorem State.setAxis_picks (a : AxisNo) (x : Axis) : (s.setAxis a x).picks = s.picks := rfl
@[simp] theorem State.setAxis_timebase (a : AxisNo) (x : Axis) : (s.setAxis a x).timebase = s.timebase := rfl
@[simp] theorem State.setAxis_straps (a : AxisNo) (x : Axis) : (s.setAxis a x).straps = s.straps := rfl
@[simp] theorem State.setAxis_sensorFilters (a : AxisNo) (x : Axis) : (s.setAxis a x).sensorFilters = s.sensorFilters := rfl
@[simp] theorem State.setAxis_captureFilters (a : AxisNo) (x : Axis) : (s.setAxis a x).captureFilters = s.captureFilters := rfl
@[simp] theorem State.setAxis_decoders (a : AxisNo) (x : Axis) : (s.setAxis a x).decoders = s.decoders := rfl
@[simp] theorem State.setAxis_marks (a : AxisNo) (x : Axis) : (s.setAxis a x).marks = s.marks := rfl
@[simp] theorem State.setAxis_outputs (a : AxisNo) (x : Axis) : (s.setAxis a x).outputs = s.outputs := rfl
@[simp] theorem State.setAxis_captures (a : AxisNo) (x : Axis) : (s.setAxis a x).captures = s.captures := rfl
@[simp] theorem State.setAxis_reports (a : AxisNo) (x : Axis) : (s.setAxis a x).reports = s.reports := rfl
@[simp] theorem State.setAxis_line (a : AxisNo) (x : Axis) : (s.setAxis a x).line = s.line := rfl
@[simp] theorem State.setAxis_rx (a : AxisNo) (x : Axis) : (s.setAxis a x).rx = s.rx := rfl
@[simp] theorem State.setAxis_tx (a : AxisNo) (x : Axis) : (s.setAxis a x).tx = s.tx := rfl
@[simp] theorem State.setAxis_handler (a : AxisNo) (x : Axis) : (s.setAxis a x).handler = s.handler := rfl
@[simp] theorem State.setAxis_session (a : AxisNo) (x : Axis) : (s.setAxis a x).session = s.session := rfl
@[simp] theorem State.setAxis_decoder (a : AxisNo) (x : Axis) (k : AxisNo) : (s.setAxis a x).decoder k = s.decoder k := rfl
@[simp] theorem State.setAxis_markList (a : AxisNo) (x : Axis) (k : AxisNo) : (s.setAxis a x).markList k = s.markList k := rfl
@[simp] theorem State.setAxis_output (a : AxisNo) (x : Axis) (k : TriggerNo) : (s.setAxis a x).output k = s.output k := rfl
@[simp] theorem State.setAxis_captureLine (a : AxisNo) (x : Axis) (k : CaptureNo) : (s.setAxis a x).captureLine k = s.captureLine k := rfl
@[simp] theorem State.setAxis_sensorFilter (a : AxisNo) (x : Axis) (k : AxisNo) : (s.setAxis a x).sensorFilter k = s.sensorFilter k := rfl
@[simp] theorem State.setAxis_captureFilter (a : AxisNo) (x : Axis) (k : CaptureNo) : (s.setAxis a x).captureFilter k = s.captureFilter k := rfl
@[simp] theorem State.setAxis_tallyUnit (a : AxisNo) (x : Axis) (k : UnitNo) : (s.setAxis a x).tallyUnit k = s.tallyUnit k := rfl
@[simp] theorem State.setAxis_filterEntry (a : AxisNo) (x : Axis) (k : EntryNo) : (s.setAxis a x).filterEntry k = s.filterEntry k := rfl
@[simp] theorem State.setAxis_reportQueue (a : AxisNo) (x : Axis) : (s.setAxis a x).reportQueue = s.reportQueue := rfl

/-! ## setDecoder -/

@[simp] theorem State.setDecoder_pending (a : AxisNo) (d : Decoder) : (s.setDecoder a d).pending = s.pending := rfl
@[simp] theorem State.setDecoder_resetLow (a : AxisNo) (d : Decoder) : (s.setDecoder a d).resetLow = s.resetLow := rfl
@[simp] theorem State.setDecoder_clock (a : AxisNo) (d : Decoder) : (s.setDecoder a d).clock = s.clock := rfl
@[simp] theorem State.setDecoder_tickedAt (a : AxisNo) (d : Decoder) : (s.setDecoder a d).tickedAt = s.tickedAt := rfl
@[simp] theorem State.setDecoder_draws (a : AxisNo) (d : Decoder) : (s.setDecoder a d).draws = s.draws := rfl
@[simp] theorem State.setDecoder_picks (a : AxisNo) (d : Decoder) : (s.setDecoder a d).picks = s.picks := rfl
@[simp] theorem State.setDecoder_timebase (a : AxisNo) (d : Decoder) : (s.setDecoder a d).timebase = s.timebase := rfl
@[simp] theorem State.setDecoder_straps (a : AxisNo) (d : Decoder) : (s.setDecoder a d).straps = s.straps := rfl
@[simp] theorem State.setDecoder_sensorFilters (a : AxisNo) (d : Decoder) : (s.setDecoder a d).sensorFilters = s.sensorFilters := rfl
@[simp] theorem State.setDecoder_captureFilters (a : AxisNo) (d : Decoder) : (s.setDecoder a d).captureFilters = s.captureFilters := rfl
@[simp] theorem State.setDecoder_axes (a : AxisNo) (d : Decoder) : (s.setDecoder a d).axes = s.axes := rfl
@[simp] theorem State.setDecoder_marks (a : AxisNo) (d : Decoder) : (s.setDecoder a d).marks = s.marks := rfl
@[simp] theorem State.setDecoder_outputs (a : AxisNo) (d : Decoder) : (s.setDecoder a d).outputs = s.outputs := rfl
@[simp] theorem State.setDecoder_captures (a : AxisNo) (d : Decoder) : (s.setDecoder a d).captures = s.captures := rfl
@[simp] theorem State.setDecoder_reports (a : AxisNo) (d : Decoder) : (s.setDecoder a d).reports = s.reports := rfl
@[simp] theorem State.setDecoder_line (a : AxisNo) (d : Decoder) : (s.setDecoder a d).line = s.line := rfl
@[simp] theorem State.setDecoder_rx (a : AxisNo) (d : Decoder) : (s.setDecoder a d).rx = s.rx := rfl
@[simp] theorem State.setDecoder_tx (a : AxisNo) (d : Decoder) : (s.setDecoder a d).tx = s.tx := rfl
@[simp] theorem State.setDecoder_handler (a : AxisNo) (d : Decoder) : (s.setDecoder a d).handler = s.handler := rfl
@[simp] theorem State.setDecoder_session (a : AxisNo) (d : Decoder) : (s.setDecoder a d).session = s.session := rfl
@[simp] theorem State.setDecoder_axis (a : AxisNo) (d : Decoder) (k : AxisNo) : (s.setDecoder a d).axis k = s.axis k := rfl
@[simp] theorem State.setDecoder_markList (a : AxisNo) (d : Decoder) (k : AxisNo) : (s.setDecoder a d).markList k = s.markList k := rfl
@[simp] theorem State.setDecoder_output (a : AxisNo) (d : Decoder) (k : TriggerNo) : (s.setDecoder a d).output k = s.output k := rfl
@[simp] theorem State.setDecoder_captureLine (a : AxisNo) (d : Decoder) (k : CaptureNo) : (s.setDecoder a d).captureLine k = s.captureLine k := rfl
@[simp] theorem State.setDecoder_sensorFilter (a : AxisNo) (d : Decoder) (k : AxisNo) : (s.setDecoder a d).sensorFilter k = s.sensorFilter k := rfl
@[simp] theorem State.setDecoder_captureFilter (a : AxisNo) (d : Decoder) (k : CaptureNo) : (s.setDecoder a d).captureFilter k = s.captureFilter k := rfl
@[simp] theorem State.setDecoder_tallyUnit (a : AxisNo) (d : Decoder) (k : UnitNo) : (s.setDecoder a d).tallyUnit k = s.tallyUnit k := rfl
@[simp] theorem State.setDecoder_filterEntry (a : AxisNo) (d : Decoder) (k : EntryNo) : (s.setDecoder a d).filterEntry k = s.filterEntry k := rfl
@[simp] theorem State.setDecoder_reportQueue (a : AxisNo) (d : Decoder) : (s.setDecoder a d).reportQueue = s.reportQueue := rfl

/-! ## setMarkList -/

@[simp] theorem State.setMarkList_pending (a : AxisNo) (l : List Mark) : (s.setMarkList a l).pending = s.pending := rfl
@[simp] theorem State.setMarkList_resetLow (a : AxisNo) (l : List Mark) : (s.setMarkList a l).resetLow = s.resetLow := rfl
@[simp] theorem State.setMarkList_clock (a : AxisNo) (l : List Mark) : (s.setMarkList a l).clock = s.clock := rfl
@[simp] theorem State.setMarkList_tickedAt (a : AxisNo) (l : List Mark) : (s.setMarkList a l).tickedAt = s.tickedAt := rfl
@[simp] theorem State.setMarkList_draws (a : AxisNo) (l : List Mark) : (s.setMarkList a l).draws = s.draws := rfl
@[simp] theorem State.setMarkList_picks (a : AxisNo) (l : List Mark) : (s.setMarkList a l).picks = s.picks := rfl
@[simp] theorem State.setMarkList_timebase (a : AxisNo) (l : List Mark) : (s.setMarkList a l).timebase = s.timebase := rfl
@[simp] theorem State.setMarkList_straps (a : AxisNo) (l : List Mark) : (s.setMarkList a l).straps = s.straps := rfl
@[simp] theorem State.setMarkList_sensorFilters (a : AxisNo) (l : List Mark) : (s.setMarkList a l).sensorFilters = s.sensorFilters := rfl
@[simp] theorem State.setMarkList_captureFilters (a : AxisNo) (l : List Mark) : (s.setMarkList a l).captureFilters = s.captureFilters := rfl
@[simp] theorem State.setMarkList_decoders (a : AxisNo) (l : List Mark) : (s.setMarkList a l).decoders = s.decoders := rfl
@[simp] theorem State.setMarkList_axes (a : AxisNo) (l : List Mark) : (s.setMarkList a l).axes = s.axes := rfl
@[simp] theorem State.setMarkList_outputs (a : AxisNo) (l : List Mark) : (s.setMarkList a l).outputs = s.outputs := rfl
@[simp] theorem State.setMarkList_captures (a : AxisNo) (l : List Mark) : (s.setMarkList a l).captures = s.captures := rfl
@[simp] theorem State.setMarkList_reports (a : AxisNo) (l : List Mark) : (s.setMarkList a l).reports = s.reports := rfl
@[simp] theorem State.setMarkList_line (a : AxisNo) (l : List Mark) : (s.setMarkList a l).line = s.line := rfl
@[simp] theorem State.setMarkList_rx (a : AxisNo) (l : List Mark) : (s.setMarkList a l).rx = s.rx := rfl
@[simp] theorem State.setMarkList_tx (a : AxisNo) (l : List Mark) : (s.setMarkList a l).tx = s.tx := rfl
@[simp] theorem State.setMarkList_handler (a : AxisNo) (l : List Mark) : (s.setMarkList a l).handler = s.handler := rfl
@[simp] theorem State.setMarkList_session (a : AxisNo) (l : List Mark) : (s.setMarkList a l).session = s.session := rfl
@[simp] theorem State.setMarkList_axis (a : AxisNo) (l : List Mark) (k : AxisNo) : (s.setMarkList a l).axis k = s.axis k := rfl
@[simp] theorem State.setMarkList_decoder (a : AxisNo) (l : List Mark) (k : AxisNo) : (s.setMarkList a l).decoder k = s.decoder k := rfl
@[simp] theorem State.setMarkList_output (a : AxisNo) (l : List Mark) (k : TriggerNo) : (s.setMarkList a l).output k = s.output k := rfl
@[simp] theorem State.setMarkList_captureLine (a : AxisNo) (l : List Mark) (k : CaptureNo) : (s.setMarkList a l).captureLine k = s.captureLine k := rfl
@[simp] theorem State.setMarkList_sensorFilter (a : AxisNo) (l : List Mark) (k : AxisNo) : (s.setMarkList a l).sensorFilter k = s.sensorFilter k := rfl
@[simp] theorem State.setMarkList_captureFilter (a : AxisNo) (l : List Mark) (k : CaptureNo) : (s.setMarkList a l).captureFilter k = s.captureFilter k := rfl
@[simp] theorem State.setMarkList_tallyUnit (a : AxisNo) (l : List Mark) (k : UnitNo) : (s.setMarkList a l).tallyUnit k = s.tallyUnit k := rfl
@[simp] theorem State.setMarkList_filterEntry (a : AxisNo) (l : List Mark) (k : EntryNo) : (s.setMarkList a l).filterEntry k = s.filterEntry k := rfl
@[simp] theorem State.setMarkList_reportQueue (a : AxisNo) (l : List Mark) : (s.setMarkList a l).reportQueue = s.reportQueue := rfl

/-! ## setOutput -/

@[simp] theorem State.setOutput_pending (n : TriggerNo) (l : OutputLine) : (s.setOutput n l).pending = s.pending := rfl
@[simp] theorem State.setOutput_resetLow (n : TriggerNo) (l : OutputLine) : (s.setOutput n l).resetLow = s.resetLow := rfl
@[simp] theorem State.setOutput_clock (n : TriggerNo) (l : OutputLine) : (s.setOutput n l).clock = s.clock := rfl
@[simp] theorem State.setOutput_tickedAt (n : TriggerNo) (l : OutputLine) : (s.setOutput n l).tickedAt = s.tickedAt := rfl
@[simp] theorem State.setOutput_draws (n : TriggerNo) (l : OutputLine) : (s.setOutput n l).draws = s.draws := rfl
@[simp] theorem State.setOutput_picks (n : TriggerNo) (l : OutputLine) : (s.setOutput n l).picks = s.picks := rfl
@[simp] theorem State.setOutput_timebase (n : TriggerNo) (l : OutputLine) : (s.setOutput n l).timebase = s.timebase := rfl
@[simp] theorem State.setOutput_straps (n : TriggerNo) (l : OutputLine) : (s.setOutput n l).straps = s.straps := rfl
@[simp] theorem State.setOutput_sensorFilters (n : TriggerNo) (l : OutputLine) : (s.setOutput n l).sensorFilters = s.sensorFilters := rfl
@[simp] theorem State.setOutput_captureFilters (n : TriggerNo) (l : OutputLine) : (s.setOutput n l).captureFilters = s.captureFilters := rfl
@[simp] theorem State.setOutput_decoders (n : TriggerNo) (l : OutputLine) : (s.setOutput n l).decoders = s.decoders := rfl
@[simp] theorem State.setOutput_axes (n : TriggerNo) (l : OutputLine) : (s.setOutput n l).axes = s.axes := rfl
@[simp] theorem State.setOutput_marks (n : TriggerNo) (l : OutputLine) : (s.setOutput n l).marks = s.marks := rfl
@[simp] theorem State.setOutput_captures (n : TriggerNo) (l : OutputLine) : (s.setOutput n l).captures = s.captures := rfl
@[simp] theorem State.setOutput_reports (n : TriggerNo) (l : OutputLine) : (s.setOutput n l).reports = s.reports := rfl
@[simp] theorem State.setOutput_line (n : TriggerNo) (l : OutputLine) : (s.setOutput n l).line = s.line := rfl
@[simp] theorem State.setOutput_rx (n : TriggerNo) (l : OutputLine) : (s.setOutput n l).rx = s.rx := rfl
@[simp] theorem State.setOutput_tx (n : TriggerNo) (l : OutputLine) : (s.setOutput n l).tx = s.tx := rfl
@[simp] theorem State.setOutput_handler (n : TriggerNo) (l : OutputLine) : (s.setOutput n l).handler = s.handler := rfl
@[simp] theorem State.setOutput_session (n : TriggerNo) (l : OutputLine) : (s.setOutput n l).session = s.session := rfl
@[simp] theorem State.setOutput_axis (n : TriggerNo) (l : OutputLine) (k : AxisNo) : (s.setOutput n l).axis k = s.axis k := rfl
@[simp] theorem State.setOutput_decoder (n : TriggerNo) (l : OutputLine) (k : AxisNo) : (s.setOutput n l).decoder k = s.decoder k := rfl
@[simp] theorem State.setOutput_markList (n : TriggerNo) (l : OutputLine) (k : AxisNo) : (s.setOutput n l).markList k = s.markList k := rfl
@[simp] theorem State.setOutput_captureLine (n : TriggerNo) (l : OutputLine) (k : CaptureNo) : (s.setOutput n l).captureLine k = s.captureLine k := rfl
@[simp] theorem State.setOutput_sensorFilter (n : TriggerNo) (l : OutputLine) (k : AxisNo) : (s.setOutput n l).sensorFilter k = s.sensorFilter k := rfl
@[simp] theorem State.setOutput_captureFilter (n : TriggerNo) (l : OutputLine) (k : CaptureNo) : (s.setOutput n l).captureFilter k = s.captureFilter k := rfl
@[simp] theorem State.setOutput_tallyUnit (n : TriggerNo) (l : OutputLine) (k : UnitNo) : (s.setOutput n l).tallyUnit k = s.tallyUnit k := rfl
@[simp] theorem State.setOutput_filterEntry (n : TriggerNo) (l : OutputLine) (k : EntryNo) : (s.setOutput n l).filterEntry k = s.filterEntry k := rfl
@[simp] theorem State.setOutput_reportQueue (n : TriggerNo) (l : OutputLine) : (s.setOutput n l).reportQueue = s.reportQueue := rfl

/-! ## setCaptureLine -/

@[simp] theorem State.setCaptureLine_pending (n : CaptureNo) (l : CaptureLine) : (s.setCaptureLine n l).pending = s.pending := rfl
@[simp] theorem State.setCaptureLine_resetLow (n : CaptureNo) (l : CaptureLine) : (s.setCaptureLine n l).resetLow = s.resetLow := rfl
@[simp] theorem State.setCaptureLine_clock (n : CaptureNo) (l : CaptureLine) : (s.setCaptureLine n l).clock = s.clock := rfl
@[simp] theorem State.setCaptureLine_tickedAt (n : CaptureNo) (l : CaptureLine) : (s.setCaptureLine n l).tickedAt = s.tickedAt := rfl
@[simp] theorem State.setCaptureLine_draws (n : CaptureNo) (l : CaptureLine) : (s.setCaptureLine n l).draws = s.draws := rfl
@[simp] theorem State.setCaptureLine_picks (n : CaptureNo) (l : CaptureLine) : (s.setCaptureLine n l).picks = s.picks := rfl
@[simp] theorem State.setCaptureLine_timebase (n : CaptureNo) (l : CaptureLine) : (s.setCaptureLine n l).timebase = s.timebase := rfl
@[simp] theorem State.setCaptureLine_straps (n : CaptureNo) (l : CaptureLine) : (s.setCaptureLine n l).straps = s.straps := rfl
@[simp] theorem State.setCaptureLine_sensorFilters (n : CaptureNo) (l : CaptureLine) : (s.setCaptureLine n l).sensorFilters = s.sensorFilters := rfl
@[simp] theorem State.setCaptureLine_captureFilters (n : CaptureNo) (l : CaptureLine) : (s.setCaptureLine n l).captureFilters = s.captureFilters := rfl
@[simp] theorem State.setCaptureLine_decoders (n : CaptureNo) (l : CaptureLine) : (s.setCaptureLine n l).decoders = s.decoders := rfl
@[simp] theorem State.setCaptureLine_axes (n : CaptureNo) (l : CaptureLine) : (s.setCaptureLine n l).axes = s.axes := rfl
@[simp] theorem State.setCaptureLine_marks (n : CaptureNo) (l : CaptureLine) : (s.setCaptureLine n l).marks = s.marks := rfl
@[simp] theorem State.setCaptureLine_outputs (n : CaptureNo) (l : CaptureLine) : (s.setCaptureLine n l).outputs = s.outputs := rfl
@[simp] theorem State.setCaptureLine_reports (n : CaptureNo) (l : CaptureLine) : (s.setCaptureLine n l).reports = s.reports := rfl
@[simp] theorem State.setCaptureLine_line (n : CaptureNo) (l : CaptureLine) : (s.setCaptureLine n l).line = s.line := rfl
@[simp] theorem State.setCaptureLine_rx (n : CaptureNo) (l : CaptureLine) : (s.setCaptureLine n l).rx = s.rx := rfl
@[simp] theorem State.setCaptureLine_tx (n : CaptureNo) (l : CaptureLine) : (s.setCaptureLine n l).tx = s.tx := rfl
@[simp] theorem State.setCaptureLine_handler (n : CaptureNo) (l : CaptureLine) : (s.setCaptureLine n l).handler = s.handler := rfl
@[simp] theorem State.setCaptureLine_session (n : CaptureNo) (l : CaptureLine) : (s.setCaptureLine n l).session = s.session := rfl
@[simp] theorem State.setCaptureLine_axis (n : CaptureNo) (l : CaptureLine) (k : AxisNo) : (s.setCaptureLine n l).axis k = s.axis k := rfl
@[simp] theorem State.setCaptureLine_decoder (n : CaptureNo) (l : CaptureLine) (k : AxisNo) : (s.setCaptureLine n l).decoder k = s.decoder k := rfl
@[simp] theorem State.setCaptureLine_markList (n : CaptureNo) (l : CaptureLine) (k : AxisNo) : (s.setCaptureLine n l).markList k = s.markList k := rfl
@[simp] theorem State.setCaptureLine_output (n : CaptureNo) (l : CaptureLine) (k : TriggerNo) : (s.setCaptureLine n l).output k = s.output k := rfl
@[simp] theorem State.setCaptureLine_sensorFilter (n : CaptureNo) (l : CaptureLine) (k : AxisNo) : (s.setCaptureLine n l).sensorFilter k = s.sensorFilter k := rfl
@[simp] theorem State.setCaptureLine_captureFilter (n : CaptureNo) (l : CaptureLine) (k : CaptureNo) : (s.setCaptureLine n l).captureFilter k = s.captureFilter k := rfl
@[simp] theorem State.setCaptureLine_tallyUnit (n : CaptureNo) (l : CaptureLine) (k : UnitNo) : (s.setCaptureLine n l).tallyUnit k = s.tallyUnit k := rfl
@[simp] theorem State.setCaptureLine_filterEntry (n : CaptureNo) (l : CaptureLine) (k : EntryNo) : (s.setCaptureLine n l).filterEntry k = s.filterEntry k := rfl
@[simp] theorem State.setCaptureLine_reportQueue (n : CaptureNo) (l : CaptureLine) : (s.setCaptureLine n l).reportQueue = s.reportQueue := rfl

/-! ## setSensorFilter -/

@[simp] theorem State.setSensorFilter_pending (a : AxisNo) (f : Vector Filter 3) : (s.setSensorFilter a f).pending = s.pending := rfl
@[simp] theorem State.setSensorFilter_resetLow (a : AxisNo) (f : Vector Filter 3) : (s.setSensorFilter a f).resetLow = s.resetLow := rfl
@[simp] theorem State.setSensorFilter_clock (a : AxisNo) (f : Vector Filter 3) : (s.setSensorFilter a f).clock = s.clock := rfl
@[simp] theorem State.setSensorFilter_tickedAt (a : AxisNo) (f : Vector Filter 3) : (s.setSensorFilter a f).tickedAt = s.tickedAt := rfl
@[simp] theorem State.setSensorFilter_draws (a : AxisNo) (f : Vector Filter 3) : (s.setSensorFilter a f).draws = s.draws := rfl
@[simp] theorem State.setSensorFilter_picks (a : AxisNo) (f : Vector Filter 3) : (s.setSensorFilter a f).picks = s.picks := rfl
@[simp] theorem State.setSensorFilter_timebase (a : AxisNo) (f : Vector Filter 3) : (s.setSensorFilter a f).timebase = s.timebase := rfl
@[simp] theorem State.setSensorFilter_straps (a : AxisNo) (f : Vector Filter 3) : (s.setSensorFilter a f).straps = s.straps := rfl
@[simp] theorem State.setSensorFilter_captureFilters (a : AxisNo) (f : Vector Filter 3) : (s.setSensorFilter a f).captureFilters = s.captureFilters := rfl
@[simp] theorem State.setSensorFilter_decoders (a : AxisNo) (f : Vector Filter 3) : (s.setSensorFilter a f).decoders = s.decoders := rfl
@[simp] theorem State.setSensorFilter_axes (a : AxisNo) (f : Vector Filter 3) : (s.setSensorFilter a f).axes = s.axes := rfl
@[simp] theorem State.setSensorFilter_marks (a : AxisNo) (f : Vector Filter 3) : (s.setSensorFilter a f).marks = s.marks := rfl
@[simp] theorem State.setSensorFilter_outputs (a : AxisNo) (f : Vector Filter 3) : (s.setSensorFilter a f).outputs = s.outputs := rfl
@[simp] theorem State.setSensorFilter_captures (a : AxisNo) (f : Vector Filter 3) : (s.setSensorFilter a f).captures = s.captures := rfl
@[simp] theorem State.setSensorFilter_reports (a : AxisNo) (f : Vector Filter 3) : (s.setSensorFilter a f).reports = s.reports := rfl
@[simp] theorem State.setSensorFilter_line (a : AxisNo) (f : Vector Filter 3) : (s.setSensorFilter a f).line = s.line := rfl
@[simp] theorem State.setSensorFilter_rx (a : AxisNo) (f : Vector Filter 3) : (s.setSensorFilter a f).rx = s.rx := rfl
@[simp] theorem State.setSensorFilter_tx (a : AxisNo) (f : Vector Filter 3) : (s.setSensorFilter a f).tx = s.tx := rfl
@[simp] theorem State.setSensorFilter_handler (a : AxisNo) (f : Vector Filter 3) : (s.setSensorFilter a f).handler = s.handler := rfl
@[simp] theorem State.setSensorFilter_session (a : AxisNo) (f : Vector Filter 3) : (s.setSensorFilter a f).session = s.session := rfl
@[simp] theorem State.setSensorFilter_axis (a : AxisNo) (f : Vector Filter 3) (k : AxisNo) : (s.setSensorFilter a f).axis k = s.axis k := rfl
@[simp] theorem State.setSensorFilter_decoder (a : AxisNo) (f : Vector Filter 3) (k : AxisNo) : (s.setSensorFilter a f).decoder k = s.decoder k := rfl
@[simp] theorem State.setSensorFilter_markList (a : AxisNo) (f : Vector Filter 3) (k : AxisNo) : (s.setSensorFilter a f).markList k = s.markList k := rfl
@[simp] theorem State.setSensorFilter_output (a : AxisNo) (f : Vector Filter 3) (k : TriggerNo) : (s.setSensorFilter a f).output k = s.output k := rfl
@[simp] theorem State.setSensorFilter_captureLine (a : AxisNo) (f : Vector Filter 3) (k : CaptureNo) : (s.setSensorFilter a f).captureLine k = s.captureLine k := rfl
@[simp] theorem State.setSensorFilter_captureFilter (a : AxisNo) (f : Vector Filter 3) (k : CaptureNo) : (s.setSensorFilter a f).captureFilter k = s.captureFilter k := rfl
@[simp] theorem State.setSensorFilter_tallyUnit (a : AxisNo) (f : Vector Filter 3) (k : UnitNo) : (s.setSensorFilter a f).tallyUnit k = s.tallyUnit k := rfl
@[simp] theorem State.setSensorFilter_filterEntry (a : AxisNo) (f : Vector Filter 3) (k : EntryNo) : (s.setSensorFilter a f).filterEntry k = s.filterEntry k := rfl
@[simp] theorem State.setSensorFilter_reportQueue (a : AxisNo) (f : Vector Filter 3) : (s.setSensorFilter a f).reportQueue = s.reportQueue := rfl

/-! ## setCaptureFilter -/

@[simp] theorem State.setCaptureFilter_pending (n : CaptureNo) (f : Filter) : (s.setCaptureFilter n f).pending = s.pending := rfl
@[simp] theorem State.setCaptureFilter_resetLow (n : CaptureNo) (f : Filter) : (s.setCaptureFilter n f).resetLow = s.resetLow := rfl
@[simp] theorem State.setCaptureFilter_clock (n : CaptureNo) (f : Filter) : (s.setCaptureFilter n f).clock = s.clock := rfl
@[simp] theorem State.setCaptureFilter_tickedAt (n : CaptureNo) (f : Filter) : (s.setCaptureFilter n f).tickedAt = s.tickedAt := rfl
@[simp] theorem State.setCaptureFilter_draws (n : CaptureNo) (f : Filter) : (s.setCaptureFilter n f).draws = s.draws := rfl
@[simp] theorem State.setCaptureFilter_picks (n : CaptureNo) (f : Filter) : (s.setCaptureFilter n f).picks = s.picks := rfl
@[simp] theorem State.setCaptureFilter_timebase (n : CaptureNo) (f : Filter) : (s.setCaptureFilter n f).timebase = s.timebase := rfl
@[simp] theorem State.setCaptureFilter_straps (n : CaptureNo) (f : Filter) : (s.setCaptureFilter n f).straps = s.straps := rfl
@[simp] theorem State.setCaptureFilter_sensorFilters (n : CaptureNo) (f : Filter) : (s.setCaptureFilter n f).sensorFilters = s.sensorFilters := rfl
@[simp] theorem State.setCaptureFilter_decoders (n : CaptureNo) (f : Filter) : (s.setCaptureFilter n f).decoders = s.decoders := rfl
@[simp] theorem State.setCaptureFilter_axes (n : CaptureNo) (f : Filter) : (s.setCaptureFilter n f).axes = s.axes := rfl
@[simp] theorem State.setCaptureFilter_marks (n : CaptureNo) (f : Filter) : (s.setCaptureFilter n f).marks = s.marks := rfl
@[simp] theorem State.setCaptureFilter_outputs (n : CaptureNo) (f : Filter) : (s.setCaptureFilter n f).outputs = s.outputs := rfl
@[simp] theorem State.setCaptureFilter_captures (n : CaptureNo) (f : Filter) : (s.setCaptureFilter n f).captures = s.captures := rfl
@[simp] theorem State.setCaptureFilter_reports (n : CaptureNo) (f : Filter) : (s.setCaptureFilter n f).reports = s.reports := rfl
@[simp] theorem State.setCaptureFilter_line (n : CaptureNo) (f : Filter) : (s.setCaptureFilter n f).line = s.line := rfl
@[simp] theorem State.setCaptureFilter_rx (n : CaptureNo) (f : Filter) : (s.setCaptureFilter n f).rx = s.rx := rfl
@[simp] theorem State.setCaptureFilter_tx (n : CaptureNo) (f : Filter) : (s.setCaptureFilter n f).tx = s.tx := rfl
@[simp] theorem State.setCaptureFilter_handler (n : CaptureNo) (f : Filter) : (s.setCaptureFilter n f).handler = s.handler := rfl
@[simp] theorem State.setCaptureFilter_session (n : CaptureNo) (f : Filter) : (s.setCaptureFilter n f).session = s.session := rfl
@[simp] theorem State.setCaptureFilter_axis (n : CaptureNo) (f : Filter) (k : AxisNo) : (s.setCaptureFilter n f).axis k = s.axis k := rfl
@[simp] theorem State.setCaptureFilter_decoder (n : CaptureNo) (f : Filter) (k : AxisNo) : (s.setCaptureFilter n f).decoder k = s.decoder k := rfl
@[simp] theorem State.setCaptureFilter_markList (n : CaptureNo) (f : Filter) (k : AxisNo) : (s.setCaptureFilter n f).markList k = s.markList k := rfl
@[simp] theorem State.setCaptureFilter_output (n : CaptureNo) (f : Filter) (k : TriggerNo) : (s.setCaptureFilter n f).output k = s.output k := rfl
@[simp] theorem State.setCaptureFilter_captureLine (n : CaptureNo) (f : Filter) (k : CaptureNo) : (s.setCaptureFilter n f).captureLine k = s.captureLine k := rfl
@[simp] theorem State.setCaptureFilter_sensorFilter (n : CaptureNo) (f : Filter) (k : AxisNo) : (s.setCaptureFilter n f).sensorFilter k = s.sensorFilter k := rfl
@[simp] theorem State.setCaptureFilter_tallyUnit (n : CaptureNo) (f : Filter) (k : UnitNo) : (s.setCaptureFilter n f).tallyUnit k = s.tallyUnit k := rfl
@[simp] theorem State.setCaptureFilter_filterEntry (n : CaptureNo) (f : Filter) (k : EntryNo) : (s.setCaptureFilter n f).filterEntry k = s.filterEntry k := rfl
@[simp] theorem State.setCaptureFilter_reportQueue (n : CaptureNo) (f : Filter) : (s.setCaptureFilter n f).reportQueue = s.reportQueue := rfl

/-! ## setTallyUnit -/

@[simp] theorem State.setTallyUnit_pending (u : UnitNo) (t : TallyUnit) : (s.setTallyUnit u t).pending = s.pending := rfl
@[simp] theorem State.setTallyUnit_resetLow (u : UnitNo) (t : TallyUnit) : (s.setTallyUnit u t).resetLow = s.resetLow := rfl
@[simp] theorem State.setTallyUnit_clock (u : UnitNo) (t : TallyUnit) : (s.setTallyUnit u t).clock = s.clock := rfl
@[simp] theorem State.setTallyUnit_tickedAt (u : UnitNo) (t : TallyUnit) : (s.setTallyUnit u t).tickedAt = s.tickedAt := rfl
@[simp] theorem State.setTallyUnit_draws (u : UnitNo) (t : TallyUnit) : (s.setTallyUnit u t).draws = s.draws := rfl
@[simp] theorem State.setTallyUnit_picks (u : UnitNo) (t : TallyUnit) : (s.setTallyUnit u t).picks = s.picks := rfl
@[simp] theorem State.setTallyUnit_timebase (u : UnitNo) (t : TallyUnit) : (s.setTallyUnit u t).timebase = s.timebase := rfl
@[simp] theorem State.setTallyUnit_straps (u : UnitNo) (t : TallyUnit) : (s.setTallyUnit u t).straps = s.straps := rfl
@[simp] theorem State.setTallyUnit_sensorFilters (u : UnitNo) (t : TallyUnit) : (s.setTallyUnit u t).sensorFilters = s.sensorFilters := rfl
@[simp] theorem State.setTallyUnit_captureFilters (u : UnitNo) (t : TallyUnit) : (s.setTallyUnit u t).captureFilters = s.captureFilters := rfl
@[simp] theorem State.setTallyUnit_decoders (u : UnitNo) (t : TallyUnit) : (s.setTallyUnit u t).decoders = s.decoders := rfl
@[simp] theorem State.setTallyUnit_axes (u : UnitNo) (t : TallyUnit) : (s.setTallyUnit u t).axes = s.axes := rfl
@[simp] theorem State.setTallyUnit_marks (u : UnitNo) (t : TallyUnit) : (s.setTallyUnit u t).marks = s.marks := rfl
@[simp] theorem State.setTallyUnit_outputs (u : UnitNo) (t : TallyUnit) : (s.setTallyUnit u t).outputs = s.outputs := rfl
@[simp] theorem State.setTallyUnit_captures (u : UnitNo) (t : TallyUnit) : (s.setTallyUnit u t).captures = s.captures := rfl
@[simp] theorem State.setTallyUnit_line (u : UnitNo) (t : TallyUnit) : (s.setTallyUnit u t).line = s.line := rfl
@[simp] theorem State.setTallyUnit_rx (u : UnitNo) (t : TallyUnit) : (s.setTallyUnit u t).rx = s.rx := rfl
@[simp] theorem State.setTallyUnit_tx (u : UnitNo) (t : TallyUnit) : (s.setTallyUnit u t).tx = s.tx := rfl
@[simp] theorem State.setTallyUnit_handler (u : UnitNo) (t : TallyUnit) : (s.setTallyUnit u t).handler = s.handler := rfl
@[simp] theorem State.setTallyUnit_session (u : UnitNo) (t : TallyUnit) : (s.setTallyUnit u t).session = s.session := rfl
@[simp] theorem State.setTallyUnit_axis (u : UnitNo) (t : TallyUnit) (k : AxisNo) : (s.setTallyUnit u t).axis k = s.axis k := rfl
@[simp] theorem State.setTallyUnit_decoder (u : UnitNo) (t : TallyUnit) (k : AxisNo) : (s.setTallyUnit u t).decoder k = s.decoder k := rfl
@[simp] theorem State.setTallyUnit_markList (u : UnitNo) (t : TallyUnit) (k : AxisNo) : (s.setTallyUnit u t).markList k = s.markList k := rfl
@[simp] theorem State.setTallyUnit_output (u : UnitNo) (t : TallyUnit) (k : TriggerNo) : (s.setTallyUnit u t).output k = s.output k := rfl
@[simp] theorem State.setTallyUnit_captureLine (u : UnitNo) (t : TallyUnit) (k : CaptureNo) : (s.setTallyUnit u t).captureLine k = s.captureLine k := rfl
@[simp] theorem State.setTallyUnit_sensorFilter (u : UnitNo) (t : TallyUnit) (k : AxisNo) : (s.setTallyUnit u t).sensorFilter k = s.sensorFilter k := rfl
@[simp] theorem State.setTallyUnit_captureFilter (u : UnitNo) (t : TallyUnit) (k : CaptureNo) : (s.setTallyUnit u t).captureFilter k = s.captureFilter k := rfl
@[simp] theorem State.setTallyUnit_filterEntry (u : UnitNo) (t : TallyUnit) (k : EntryNo) : (s.setTallyUnit u t).filterEntry k = s.filterEntry k := rfl
@[simp] theorem State.setTallyUnit_reportQueue (u : UnitNo) (t : TallyUnit) : (s.setTallyUnit u t).reportQueue = s.reportQueue := rfl

/-! ## setFilterEntry -/

@[simp] theorem State.setFilterEntry_pending (e : EntryNo) (f : FilterEntry) : (s.setFilterEntry e f).pending = s.pending := rfl
@[simp] theorem State.setFilterEntry_resetLow (e : EntryNo) (f : FilterEntry) : (s.setFilterEntry e f).resetLow = s.resetLow := rfl
@[simp] theorem State.setFilterEntry_clock (e : EntryNo) (f : FilterEntry) : (s.setFilterEntry e f).clock = s.clock := rfl
@[simp] theorem State.setFilterEntry_tickedAt (e : EntryNo) (f : FilterEntry) : (s.setFilterEntry e f).tickedAt = s.tickedAt := rfl
@[simp] theorem State.setFilterEntry_draws (e : EntryNo) (f : FilterEntry) : (s.setFilterEntry e f).draws = s.draws := rfl
@[simp] theorem State.setFilterEntry_picks (e : EntryNo) (f : FilterEntry) : (s.setFilterEntry e f).picks = s.picks := rfl
@[simp] theorem State.setFilterEntry_timebase (e : EntryNo) (f : FilterEntry) : (s.setFilterEntry e f).timebase = s.timebase := rfl
@[simp] theorem State.setFilterEntry_straps (e : EntryNo) (f : FilterEntry) : (s.setFilterEntry e f).straps = s.straps := rfl
@[simp] theorem State.setFilterEntry_sensorFilters (e : EntryNo) (f : FilterEntry) : (s.setFilterEntry e f).sensorFilters = s.sensorFilters := rfl
@[simp] theorem State.setFilterEntry_captureFilters (e : EntryNo) (f : FilterEntry) : (s.setFilterEntry e f).captureFilters = s.captureFilters := rfl
@[simp] theorem State.setFilterEntry_decoders (e : EntryNo) (f : FilterEntry) : (s.setFilterEntry e f).decoders = s.decoders := rfl
@[simp] theorem State.setFilterEntry_axes (e : EntryNo) (f : FilterEntry) : (s.setFilterEntry e f).axes = s.axes := rfl
@[simp] theorem State.setFilterEntry_marks (e : EntryNo) (f : FilterEntry) : (s.setFilterEntry e f).marks = s.marks := rfl
@[simp] theorem State.setFilterEntry_outputs (e : EntryNo) (f : FilterEntry) : (s.setFilterEntry e f).outputs = s.outputs := rfl
@[simp] theorem State.setFilterEntry_captures (e : EntryNo) (f : FilterEntry) : (s.setFilterEntry e f).captures = s.captures := rfl
@[simp] theorem State.setFilterEntry_line (e : EntryNo) (f : FilterEntry) : (s.setFilterEntry e f).line = s.line := rfl
@[simp] theorem State.setFilterEntry_rx (e : EntryNo) (f : FilterEntry) : (s.setFilterEntry e f).rx = s.rx := rfl
@[simp] theorem State.setFilterEntry_tx (e : EntryNo) (f : FilterEntry) : (s.setFilterEntry e f).tx = s.tx := rfl
@[simp] theorem State.setFilterEntry_handler (e : EntryNo) (f : FilterEntry) : (s.setFilterEntry e f).handler = s.handler := rfl
@[simp] theorem State.setFilterEntry_session (e : EntryNo) (f : FilterEntry) : (s.setFilterEntry e f).session = s.session := rfl
@[simp] theorem State.setFilterEntry_axis (e : EntryNo) (f : FilterEntry) (k : AxisNo) : (s.setFilterEntry e f).axis k = s.axis k := rfl
@[simp] theorem State.setFilterEntry_decoder (e : EntryNo) (f : FilterEntry) (k : AxisNo) : (s.setFilterEntry e f).decoder k = s.decoder k := rfl
@[simp] theorem State.setFilterEntry_markList (e : EntryNo) (f : FilterEntry) (k : AxisNo) : (s.setFilterEntry e f).markList k = s.markList k := rfl
@[simp] theorem State.setFilterEntry_output (e : EntryNo) (f : FilterEntry) (k : TriggerNo) : (s.setFilterEntry e f).output k = s.output k := rfl
@[simp] theorem State.setFilterEntry_captureLine (e : EntryNo) (f : FilterEntry) (k : CaptureNo) : (s.setFilterEntry e f).captureLine k = s.captureLine k := rfl
@[simp] theorem State.setFilterEntry_sensorFilter (e : EntryNo) (f : FilterEntry) (k : AxisNo) : (s.setFilterEntry e f).sensorFilter k = s.sensorFilter k := rfl
@[simp] theorem State.setFilterEntry_captureFilter (e : EntryNo) (f : FilterEntry) (k : CaptureNo) : (s.setFilterEntry e f).captureFilter k = s.captureFilter k := rfl
@[simp] theorem State.setFilterEntry_tallyUnit (e : EntryNo) (f : FilterEntry) (k : UnitNo) : (s.setFilterEntry e f).tallyUnit k = s.tallyUnit k := rfl
@[simp] theorem State.setFilterEntry_reportQueue (e : EntryNo) (f : FilterEntry) : (s.setFilterEntry e f).reportQueue = s.reportQueue := rfl

/-! ## setQueue -/

@[simp] theorem State.setQueue_pending (q : ReportQueue) : (s.setQueue q).pending = s.pending := rfl
@[simp] theorem State.setQueue_resetLow (q : ReportQueue) : (s.setQueue q).resetLow = s.resetLow := rfl
@[simp] theorem State.setQueue_clock (q : ReportQueue) : (s.setQueue q).clock = s.clock := rfl
@[simp] theorem State.setQueue_tickedAt (q : ReportQueue) : (s.setQueue q).tickedAt = s.tickedAt := rfl
@[simp] theorem State.setQueue_draws (q : ReportQueue) : (s.setQueue q).draws = s.draws := rfl
@[simp] theorem State.setQueue_picks (q : ReportQueue) : (s.setQueue q).picks = s.picks := rfl
@[simp] theorem State.setQueue_timebase (q : ReportQueue) : (s.setQueue q).timebase = s.timebase := rfl
@[simp] theorem State.setQueue_straps (q : ReportQueue) : (s.setQueue q).straps = s.straps := rfl
@[simp] theorem State.setQueue_sensorFilters (q : ReportQueue) : (s.setQueue q).sensorFilters = s.sensorFilters := rfl
@[simp] theorem State.setQueue_captureFilters (q : ReportQueue) : (s.setQueue q).captureFilters = s.captureFilters := rfl
@[simp] theorem State.setQueue_decoders (q : ReportQueue) : (s.setQueue q).decoders = s.decoders := rfl
@[simp] theorem State.setQueue_axes (q : ReportQueue) : (s.setQueue q).axes = s.axes := rfl
@[simp] theorem State.setQueue_marks (q : ReportQueue) : (s.setQueue q).marks = s.marks := rfl
@[simp] theorem State.setQueue_outputs (q : ReportQueue) : (s.setQueue q).outputs = s.outputs := rfl
@[simp] theorem State.setQueue_captures (q : ReportQueue) : (s.setQueue q).captures = s.captures := rfl
@[simp] theorem State.setQueue_line (q : ReportQueue) : (s.setQueue q).line = s.line := rfl
@[simp] theorem State.setQueue_rx (q : ReportQueue) : (s.setQueue q).rx = s.rx := rfl
@[simp] theorem State.setQueue_tx (q : ReportQueue) : (s.setQueue q).tx = s.tx := rfl
@[simp] theorem State.setQueue_handler (q : ReportQueue) : (s.setQueue q).handler = s.handler := rfl
@[simp] theorem State.setQueue_session (q : ReportQueue) : (s.setQueue q).session = s.session := rfl
@[simp] theorem State.setQueue_axis (q : ReportQueue) (k : AxisNo) : (s.setQueue q).axis k = s.axis k := rfl
@[simp] theorem State.setQueue_decoder (q : ReportQueue) (k : AxisNo) : (s.setQueue q).decoder k = s.decoder k := rfl
@[simp] theorem State.setQueue_markList (q : ReportQueue) (k : AxisNo) : (s.setQueue q).markList k = s.markList k := rfl
@[simp] theorem State.setQueue_output (q : ReportQueue) (k : TriggerNo) : (s.setQueue q).output k = s.output k := rfl
@[simp] theorem State.setQueue_captureLine (q : ReportQueue) (k : CaptureNo) : (s.setQueue q).captureLine k = s.captureLine k := rfl
@[simp] theorem State.setQueue_sensorFilter (q : ReportQueue) (k : AxisNo) : (s.setQueue q).sensorFilter k = s.sensorFilter k := rfl
@[simp] theorem State.setQueue_captureFilter (q : ReportQueue) (k : CaptureNo) : (s.setQueue q).captureFilter k = s.captureFilter k := rfl
@[simp] theorem State.setQueue_tallyUnit (q : ReportQueue) (k : UnitNo) : (s.setQueue q).tallyUnit k = s.tallyUnit k := rfl
@[simp] theorem State.setQueue_filterEntry (q : ReportQueue) (k : EntryNo) : (s.setQueue q).filterEntry k = s.filterEntry k := rfl

/-! ## formRecord -/

@[simp] theorem State.formRecord_pending (b : RecordBody) : (s.formRecord b).pending = s.pending := rfl
@[simp] theorem State.formRecord_resetLow (b : RecordBody) : (s.formRecord b).resetLow = s.resetLow := rfl
@[simp] theorem State.formRecord_clock (b : RecordBody) : (s.formRecord b).clock = s.clock := rfl
@[simp] theorem State.formRecord_tickedAt (b : RecordBody) : (s.formRecord b).tickedAt = s.tickedAt := rfl
@[simp] theorem State.formRecord_draws (b : RecordBody) : (s.formRecord b).draws = s.draws := rfl
@[simp] theorem State.formRecord_picks (b : RecordBody) : (s.formRecord b).picks = s.picks := rfl
@[simp] theorem State.formRecord_timebase (b : RecordBody) : (s.formRecord b).timebase = s.timebase := rfl
@[simp] theorem State.formRecord_straps (b : RecordBody) : (s.formRecord b).straps = s.straps := rfl
@[simp] theorem State.formRecord_sensorFilters (b : RecordBody) : (s.formRecord b).sensorFilters = s.sensorFilters := rfl
@[simp] theorem State.formRecord_captureFilters (b : RecordBody) : (s.formRecord b).captureFilters = s.captureFilters := rfl
@[simp] theorem State.formRecord_decoders (b : RecordBody) : (s.formRecord b).decoders = s.decoders := rfl
@[simp] theorem State.formRecord_axes (b : RecordBody) : (s.formRecord b).axes = s.axes := rfl
@[simp] theorem State.formRecord_marks (b : RecordBody) : (s.formRecord b).marks = s.marks := rfl
@[simp] theorem State.formRecord_outputs (b : RecordBody) : (s.formRecord b).outputs = s.outputs := rfl
@[simp] theorem State.formRecord_captures (b : RecordBody) : (s.formRecord b).captures = s.captures := rfl
@[simp] theorem State.formRecord_line (b : RecordBody) : (s.formRecord b).line = s.line := rfl
@[simp] theorem State.formRecord_rx (b : RecordBody) : (s.formRecord b).rx = s.rx := rfl
@[simp] theorem State.formRecord_tx (b : RecordBody) : (s.formRecord b).tx = s.tx := rfl
@[simp] theorem State.formRecord_handler (b : RecordBody) : (s.formRecord b).handler = s.handler := rfl
@[simp] theorem State.formRecord_session (b : RecordBody) : (s.formRecord b).session = s.session := rfl
@[simp] theorem State.formRecord_axis (b : RecordBody) (k : AxisNo) : (s.formRecord b).axis k = s.axis k := rfl
@[simp] theorem State.formRecord_decoder (b : RecordBody) (k : AxisNo) : (s.formRecord b).decoder k = s.decoder k := rfl
@[simp] theorem State.formRecord_markList (b : RecordBody) (k : AxisNo) : (s.formRecord b).markList k = s.markList k := rfl
@[simp] theorem State.formRecord_output (b : RecordBody) (k : TriggerNo) : (s.formRecord b).output k = s.output k := rfl
@[simp] theorem State.formRecord_captureLine (b : RecordBody) (k : CaptureNo) : (s.formRecord b).captureLine k = s.captureLine k := rfl
@[simp] theorem State.formRecord_sensorFilter (b : RecordBody) (k : AxisNo) : (s.formRecord b).sensorFilter k = s.sensorFilter k := rfl
@[simp] theorem State.formRecord_captureFilter (b : RecordBody) (k : CaptureNo) : (s.formRecord b).captureFilter k = s.captureFilter k := rfl

/-! ## setHandler -/

@[simp] theorem State.setHandler_pending (h : Handler) : (s.setHandler h).pending = s.pending := rfl
@[simp] theorem State.setHandler_resetLow (h : Handler) : (s.setHandler h).resetLow = s.resetLow := rfl
@[simp] theorem State.setHandler_clock (h : Handler) : (s.setHandler h).clock = s.clock := rfl
@[simp] theorem State.setHandler_tickedAt (h : Handler) : (s.setHandler h).tickedAt = s.tickedAt := rfl
@[simp] theorem State.setHandler_draws (h : Handler) : (s.setHandler h).draws = s.draws := rfl
@[simp] theorem State.setHandler_picks (h : Handler) : (s.setHandler h).picks = s.picks := rfl
@[simp] theorem State.setHandler_timebase (h : Handler) : (s.setHandler h).timebase = s.timebase := rfl
@[simp] theorem State.setHandler_straps (h : Handler) : (s.setHandler h).straps = s.straps := rfl
@[simp] theorem State.setHandler_sensorFilters (h : Handler) : (s.setHandler h).sensorFilters = s.sensorFilters := rfl
@[simp] theorem State.setHandler_captureFilters (h : Handler) : (s.setHandler h).captureFilters = s.captureFilters := rfl
@[simp] theorem State.setHandler_decoders (h : Handler) : (s.setHandler h).decoders = s.decoders := rfl
@[simp] theorem State.setHandler_axes (h : Handler) : (s.setHandler h).axes = s.axes := rfl
@[simp] theorem State.setHandler_marks (h : Handler) : (s.setHandler h).marks = s.marks := rfl
@[simp] theorem State.setHandler_outputs (h : Handler) : (s.setHandler h).outputs = s.outputs := rfl
@[simp] theorem State.setHandler_captures (h : Handler) : (s.setHandler h).captures = s.captures := rfl
@[simp] theorem State.setHandler_reports (h : Handler) : (s.setHandler h).reports = s.reports := rfl
@[simp] theorem State.setHandler_line (h : Handler) : (s.setHandler h).line = s.line := rfl
@[simp] theorem State.setHandler_rx (h : Handler) : (s.setHandler h).rx = s.rx := rfl
@[simp] theorem State.setHandler_tx (h : Handler) : (s.setHandler h).tx = s.tx := rfl
@[simp] theorem State.setHandler_session (h : Handler) : (s.setHandler h).session = s.session := rfl
@[simp] theorem State.setHandler_axis (h : Handler) (k : AxisNo) : (s.setHandler h).axis k = s.axis k := rfl
@[simp] theorem State.setHandler_decoder (h : Handler) (k : AxisNo) : (s.setHandler h).decoder k = s.decoder k := rfl
@[simp] theorem State.setHandler_markList (h : Handler) (k : AxisNo) : (s.setHandler h).markList k = s.markList k := rfl
@[simp] theorem State.setHandler_output (h : Handler) (k : TriggerNo) : (s.setHandler h).output k = s.output k := rfl
@[simp] theorem State.setHandler_captureLine (h : Handler) (k : CaptureNo) : (s.setHandler h).captureLine k = s.captureLine k := rfl
@[simp] theorem State.setHandler_sensorFilter (h : Handler) (k : AxisNo) : (s.setHandler h).sensorFilter k = s.sensorFilter k := rfl
@[simp] theorem State.setHandler_captureFilter (h : Handler) (k : CaptureNo) : (s.setHandler h).captureFilter k = s.captureFilter k := rfl
@[simp] theorem State.setHandler_tallyUnit (h : Handler) (k : UnitNo) : (s.setHandler h).tallyUnit k = s.tallyUnit k := rfl
@[simp] theorem State.setHandler_filterEntry (h : Handler) (k : EntryNo) : (s.setHandler h).filterEntry k = s.filterEntry k := rfl
@[simp] theorem State.setHandler_reportQueue (h : Handler) : (s.setHandler h).reportQueue = s.reportQueue := rfl

/-! ## setSession -/

@[simp] theorem State.setSession_pending (x : Session) : (s.setSession x).pending = s.pending := rfl
@[simp] theorem State.setSession_resetLow (x : Session) : (s.setSession x).resetLow = s.resetLow := rfl
@[simp] theorem State.setSession_clock (x : Session) : (s.setSession x).clock = s.clock := rfl
@[simp] theorem State.setSession_tickedAt (x : Session) : (s.setSession x).tickedAt = s.tickedAt := rfl
@[simp] theorem State.setSession_draws (x : Session) : (s.setSession x).draws = s.draws := rfl
@[simp] theorem State.setSession_picks (x : Session) : (s.setSession x).picks = s.picks := rfl
@[simp] theorem State.setSession_timebase (x : Session) : (s.setSession x).timebase = s.timebase := rfl
@[simp] theorem State.setSession_straps (x : Session) : (s.setSession x).straps = s.straps := rfl
@[simp] theorem State.setSession_sensorFilters (x : Session) : (s.setSession x).sensorFilters = s.sensorFilters := rfl
@[simp] theorem State.setSession_captureFilters (x : Session) : (s.setSession x).captureFilters = s.captureFilters := rfl
@[simp] theorem State.setSession_decoders (x : Session) : (s.setSession x).decoders = s.decoders := rfl
@[simp] theorem State.setSession_axes (x : Session) : (s.setSession x).axes = s.axes := rfl
@[simp] theorem State.setSession_marks (x : Session) : (s.setSession x).marks = s.marks := rfl
@[simp] theorem State.setSession_outputs (x : Session) : (s.setSession x).outputs = s.outputs := rfl
@[simp] theorem State.setSession_captures (x : Session) : (s.setSession x).captures = s.captures := rfl
@[simp] theorem State.setSession_reports (x : Session) : (s.setSession x).reports = s.reports := rfl
@[simp] theorem State.setSession_line (x : Session) : (s.setSession x).line = s.line := rfl
@[simp] theorem State.setSession_rx (x : Session) : (s.setSession x).rx = s.rx := rfl
@[simp] theorem State.setSession_tx (x : Session) : (s.setSession x).tx = s.tx := rfl
@[simp] theorem State.setSession_handler (x : Session) : (s.setSession x).handler = s.handler := rfl
@[simp] theorem State.setSession_axis (x : Session) (k : AxisNo) : (s.setSession x).axis k = s.axis k := rfl
@[simp] theorem State.setSession_decoder (x : Session) (k : AxisNo) : (s.setSession x).decoder k = s.decoder k := rfl
@[simp] theorem State.setSession_markList (x : Session) (k : AxisNo) : (s.setSession x).markList k = s.markList k := rfl
@[simp] theorem State.setSession_output (x : Session) (k : TriggerNo) : (s.setSession x).output k = s.output k := rfl
@[simp] theorem State.setSession_captureLine (x : Session) (k : CaptureNo) : (s.setSession x).captureLine k = s.captureLine k := rfl
@[simp] theorem State.setSession_sensorFilter (x : Session) (k : AxisNo) : (s.setSession x).sensorFilter k = s.sensorFilter k := rfl
@[simp] theorem State.setSession_captureFilter (x : Session) (k : CaptureNo) : (s.setSession x).captureFilter k = s.captureFilter k := rfl
@[simp] theorem State.setSession_tallyUnit (x : Session) (k : UnitNo) : (s.setSession x).tallyUnit k = s.tallyUnit k := rfl
@[simp] theorem State.setSession_filterEntry (x : Session) (k : EntryNo) : (s.setSession x).filterEntry k = s.filterEntry k := rfl
@[simp] theorem State.setSession_reportQueue (x : Session) : (s.setSession x).reportQueue = s.reportQueue := rfl

/-! ## setLine -/

@[simp] theorem State.setLine_pending (x : LineReceiver) : (s.setLine x).pending = s.pending := rfl
@[simp] theorem State.setLine_resetLow (x : LineReceiver) : (s.setLine x).resetLow = s.resetLow := rfl
@[simp] theorem State.setLine_clock (x : LineReceiver) : (s.setLine x).clock = s.clock := rfl
@[simp] theorem State.setLine_tickedAt (x : LineReceiver) : (s.setLine x).tickedAt = s.tickedAt := rfl
@[simp] theorem State.setLine_draws (x : LineReceiver) : (s.setLine x).draws = s.draws := rfl
@[simp] theorem State.setLine_picks (x : LineReceiver) : (s.setLine x).picks = s.picks := rfl
@[simp] theorem State.setLine_timebase (x : LineReceiver) : (s.setLine x).timebase = s.timebase := rfl
@[simp] theorem State.setLine_straps (x : LineReceiver) : (s.setLine x).straps = s.straps := rfl
@[simp] theorem State.setLine_sensorFilters (x : LineReceiver) : (s.setLine x).sensorFilters = s.sensorFilters := rfl
@[simp] theorem State.setLine_captureFilters (x : LineReceiver) : (s.setLine x).captureFilters = s.captureFilters := rfl
@[simp] theorem State.setLine_decoders (x : LineReceiver) : (s.setLine x).decoders = s.decoders := rfl
@[simp] theorem State.setLine_axes (x : LineReceiver) : (s.setLine x).axes = s.axes := rfl
@[simp] theorem State.setLine_marks (x : LineReceiver) : (s.setLine x).marks = s.marks := rfl
@[simp] theorem State.setLine_outputs (x : LineReceiver) : (s.setLine x).outputs = s.outputs := rfl
@[simp] theorem State.setLine_captures (x : LineReceiver) : (s.setLine x).captures = s.captures := rfl
@[simp] theorem State.setLine_reports (x : LineReceiver) : (s.setLine x).reports = s.reports := rfl
@[simp] theorem State.setLine_rx (x : LineReceiver) : (s.setLine x).rx = s.rx := rfl
@[simp] theorem State.setLine_tx (x : LineReceiver) : (s.setLine x).tx = s.tx := rfl
@[simp] theorem State.setLine_handler (x : LineReceiver) : (s.setLine x).handler = s.handler := rfl
@[simp] theorem State.setLine_session (x : LineReceiver) : (s.setLine x).session = s.session := rfl
@[simp] theorem State.setLine_axis (x : LineReceiver) (k : AxisNo) : (s.setLine x).axis k = s.axis k := rfl
@[simp] theorem State.setLine_decoder (x : LineReceiver) (k : AxisNo) : (s.setLine x).decoder k = s.decoder k := rfl
@[simp] theorem State.setLine_markList (x : LineReceiver) (k : AxisNo) : (s.setLine x).markList k = s.markList k := rfl
@[simp] theorem State.setLine_output (x : LineReceiver) (k : TriggerNo) : (s.setLine x).output k = s.output k := rfl
@[simp] theorem State.setLine_captureLine (x : LineReceiver) (k : CaptureNo) : (s.setLine x).captureLine k = s.captureLine k := rfl
@[simp] theorem State.setLine_sensorFilter (x : LineReceiver) (k : AxisNo) : (s.setLine x).sensorFilter k = s.sensorFilter k := rfl
@[simp] theorem State.setLine_captureFilter (x : LineReceiver) (k : CaptureNo) : (s.setLine x).captureFilter k = s.captureFilter k := rfl
@[simp] theorem State.setLine_tallyUnit (x : LineReceiver) (k : UnitNo) : (s.setLine x).tallyUnit k = s.tallyUnit k := rfl
@[simp] theorem State.setLine_filterEntry (x : LineReceiver) (k : EntryNo) : (s.setLine x).filterEntry k = s.filterEntry k := rfl
@[simp] theorem State.setLine_reportQueue (x : LineReceiver) : (s.setLine x).reportQueue = s.reportQueue := rfl

/-! ## setRx -/

@[simp] theorem State.setRx_pending (x : Receiver) : (s.setRx x).pending = s.pending := rfl
@[simp] theorem State.setRx_resetLow (x : Receiver) : (s.setRx x).resetLow = s.resetLow := rfl
@[simp] theorem State.setRx_clock (x : Receiver) : (s.setRx x).clock = s.clock := rfl
@[simp] theorem State.setRx_tickedAt (x : Receiver) : (s.setRx x).tickedAt = s.tickedAt := rfl
@[simp] theorem State.setRx_draws (x : Receiver) : (s.setRx x).draws = s.draws := rfl
@[simp] theorem State.setRx_picks (x : Receiver) : (s.setRx x).picks = s.picks := rfl
@[simp] theorem State.setRx_timebase (x : Receiver) : (s.setRx x).timebase = s.timebase := rfl
@[simp] theorem State.setRx_straps (x : Receiver) : (s.setRx x).straps = s.straps := rfl
@[simp] theorem State.setRx_sensorFilters (x : Receiver) : (s.setRx x).sensorFilters = s.sensorFilters := rfl
@[simp] theorem State.setRx_captureFilters (x : Receiver) : (s.setRx x).captureFilters = s.captureFilters := rfl
@[simp] theorem State.setRx_decoders (x : Receiver) : (s.setRx x).decoders = s.decoders := rfl
@[simp] theorem State.setRx_axes (x : Receiver) : (s.setRx x).axes = s.axes := rfl
@[simp] theorem State.setRx_marks (x : Receiver) : (s.setRx x).marks = s.marks := rfl
@[simp] theorem State.setRx_outputs (x : Receiver) : (s.setRx x).outputs = s.outputs := rfl
@[simp] theorem State.setRx_captures (x : Receiver) : (s.setRx x).captures = s.captures := rfl
@[simp] theorem State.setRx_reports (x : Receiver) : (s.setRx x).reports = s.reports := rfl
@[simp] theorem State.setRx_line (x : Receiver) : (s.setRx x).line = s.line := rfl
@[simp] theorem State.setRx_tx (x : Receiver) : (s.setRx x).tx = s.tx := rfl
@[simp] theorem State.setRx_handler (x : Receiver) : (s.setRx x).handler = s.handler := rfl
@[simp] theorem State.setRx_session (x : Receiver) : (s.setRx x).session = s.session := rfl
@[simp] theorem State.setRx_axis (x : Receiver) (k : AxisNo) : (s.setRx x).axis k = s.axis k := rfl
@[simp] theorem State.setRx_decoder (x : Receiver) (k : AxisNo) : (s.setRx x).decoder k = s.decoder k := rfl
@[simp] theorem State.setRx_markList (x : Receiver) (k : AxisNo) : (s.setRx x).markList k = s.markList k := rfl
@[simp] theorem State.setRx_output (x : Receiver) (k : TriggerNo) : (s.setRx x).output k = s.output k := rfl
@[simp] theorem State.setRx_captureLine (x : Receiver) (k : CaptureNo) : (s.setRx x).captureLine k = s.captureLine k := rfl
@[simp] theorem State.setRx_sensorFilter (x : Receiver) (k : AxisNo) : (s.setRx x).sensorFilter k = s.sensorFilter k := rfl
@[simp] theorem State.setRx_captureFilter (x : Receiver) (k : CaptureNo) : (s.setRx x).captureFilter k = s.captureFilter k := rfl
@[simp] theorem State.setRx_tallyUnit (x : Receiver) (k : UnitNo) : (s.setRx x).tallyUnit k = s.tallyUnit k := rfl
@[simp] theorem State.setRx_filterEntry (x : Receiver) (k : EntryNo) : (s.setRx x).filterEntry k = s.filterEntry k := rfl
@[simp] theorem State.setRx_reportQueue (x : Receiver) : (s.setRx x).reportQueue = s.reportQueue := rfl

/-! ## countDiscard -/

@[simp] theorem State.countDiscard_pending : (s.countDiscard).pending = s.pending := rfl
@[simp] theorem State.countDiscard_resetLow : (s.countDiscard).resetLow = s.resetLow := rfl
@[simp] theorem State.countDiscard_clock : (s.countDiscard).clock = s.clock := rfl
@[simp] theorem State.countDiscard_tickedAt : (s.countDiscard).tickedAt = s.tickedAt := rfl
@[simp] theorem State.countDiscard_draws : (s.countDiscard).draws = s.draws := rfl
@[simp] theorem State.countDiscard_picks : (s.countDiscard).picks = s.picks := rfl
@[simp] theorem State.countDiscard_timebase : (s.countDiscard).timebase = s.timebase := rfl
@[simp] theorem State.countDiscard_straps : (s.countDiscard).straps = s.straps := rfl
@[simp] theorem State.countDiscard_sensorFilters : (s.countDiscard).sensorFilters = s.sensorFilters := rfl
@[simp] theorem State.countDiscard_captureFilters : (s.countDiscard).captureFilters = s.captureFilters := rfl
@[simp] theorem State.countDiscard_decoders : (s.countDiscard).decoders = s.decoders := rfl
@[simp] theorem State.countDiscard_axes : (s.countDiscard).axes = s.axes := rfl
@[simp] theorem State.countDiscard_marks : (s.countDiscard).marks = s.marks := rfl
@[simp] theorem State.countDiscard_outputs : (s.countDiscard).outputs = s.outputs := rfl
@[simp] theorem State.countDiscard_captures : (s.countDiscard).captures = s.captures := rfl
@[simp] theorem State.countDiscard_reports : (s.countDiscard).reports = s.reports := rfl
@[simp] theorem State.countDiscard_line : (s.countDiscard).line = s.line := rfl
@[simp] theorem State.countDiscard_tx : (s.countDiscard).tx = s.tx := rfl
@[simp] theorem State.countDiscard_handler : (s.countDiscard).handler = s.handler := rfl
@[simp] theorem State.countDiscard_session : (s.countDiscard).session = s.session := rfl
@[simp] theorem State.countDiscard_axis (k : AxisNo) : (s.countDiscard).axis k = s.axis k := rfl
@[simp] theorem State.countDiscard_decoder (k : AxisNo) : (s.countDiscard).decoder k = s.decoder k := rfl
@[simp] theorem State.countDiscard_markList (k : AxisNo) : (s.countDiscard).markList k = s.markList k := rfl
@[simp] theorem State.countDiscard_output (k : TriggerNo) : (s.countDiscard).output k = s.output k := rfl
@[simp] theorem State.countDiscard_captureLine (k : CaptureNo) : (s.countDiscard).captureLine k = s.captureLine k := rfl
@[simp] theorem State.countDiscard_sensorFilter (k : AxisNo) : (s.countDiscard).sensorFilter k = s.sensorFilter k := rfl
@[simp] theorem State.countDiscard_captureFilter (k : CaptureNo) : (s.countDiscard).captureFilter k = s.captureFilter k := rfl
@[simp] theorem State.countDiscard_tallyUnit (k : UnitNo) : (s.countDiscard).tallyUnit k = s.tallyUnit k := rfl
@[simp] theorem State.countDiscard_filterEntry (k : EntryNo) : (s.countDiscard).filterEntry k = s.filterEntry k := rfl
@[simp] theorem State.countDiscard_reportQueue : (s.countDiscard).reportQueue = s.reportQueue := rfl

@[simp] theorem State.setQueue_own (q : ReportQueue) : (s.setQueue q).reportQueue = q := rfl
@[simp] theorem State.setHandler_own (h : Handler) : (s.setHandler h).handler = h := rfl
@[simp] theorem State.setSession_own (x : Session) : (s.setSession x).session = x := rfl
@[simp] theorem State.setRx_own (x : Receiver) : (s.setRx x).rx = x := rfl
@[simp] theorem State.setLine_own (x : LineReceiver) : (s.setLine x).line = x := rfl
@[simp] theorem State.setLine_self : s.setLine s.line = s := rfl
@[simp] theorem State.setLine_twice (x y : LineReceiver) : (s.setLine x).setLine y = s.setLine y := rfl
@[simp] theorem State.setHandler_self : s.setHandler s.handler = s := rfl
@[simp] theorem State.setSession_self : s.setSession s.session = s := rfl
@[simp] theorem State.setRx_self : s.setRx s.rx = s := rfl
@[simp] theorem State.setQueue_self : s.setQueue s.reportQueue = s := rfl
@[simp] theorem State.setHandler_twice (h k : Handler) : (s.setHandler h).setHandler k = s.setHandler k := rfl
@[simp] theorem State.setSession_twice (x y : Session) : (s.setSession x).setSession y = s.setSession y := rfl
@[simp] theorem State.setRx_twice (x y : Receiver) : (s.setRx x).setRx y = s.setRx y := rfl
@[simp] theorem State.setQueue_twice (p q : ReportQueue) : (s.setQueue p).setQueue q = s.setQueue q := rfl

/-! ## Reads after writes of an instance -/

/-- A vector read at the place just written. -/
theorem vector_get_set {α : Type} {n : Nat} (v : Vector α n) (i : Fin n) (x : α) : (v.set i.val x i.isLt).get i = x := by
  simp [Vector.get_eq_getElem]

/-- A vector read at another place than the one written. -/
theorem vector_get_set_ne {α : Type} {n : Nat} (v : Vector α n) (i j : Fin n) (x : α) (h : i ≠ j) :
    (v.set i.val x i.isLt).get j = v.get j := by
  have : i.val ≠ j.val := fun e => h (Fin.ext e)
  simp [Vector.get_eq_getElem, this]

/-- A vector written with what it holds. -/
theorem vector_set_get {α : Type} {n : Nat} (v : Vector α n) (i : Fin n) : v.set i.val (v.get i) i.isLt = v := by
  simp [Vector.get_eq_getElem]

@[simp] theorem State.axis_setAxis (i : AxisNo) (x : Axis) : (s.setAxis i x).axis i = x := vector_get_set _ i x
theorem State.axis_setAxis_ne {i j : AxisNo} (x : Axis) (h : i ≠ j) : (s.setAxis i x).axis j = s.axis j :=
  vector_get_set_ne _ i j x h
@[simp] theorem State.setAxis_twice (i : AxisNo) (x y : Axis) : (s.setAxis i x).setAxis i y = s.setAxis i y := by
  simp [State.setAxis]
@[simp] theorem State.setAxis_self (i : AxisNo) : s.setAxis i (s.axis i) = s := by
  simp [State.setAxis, State.axis, vector_set_get]

@[simp] theorem State.decoder_setDecoder (i : AxisNo) (x : Decoder) : (s.setDecoder i x).decoder i = x := vector_get_set _ i x
theorem State.decoder_setDecoder_ne {i j : AxisNo} (x : Decoder) (h : i ≠ j) : (s.setDecoder i x).decoder j = s.decoder j :=
  vector_get_set_ne _ i j x h
@[simp] theorem State.setDecoder_twice (i : AxisNo) (x y : Decoder) : (s.setDecoder i x).setDecoder i y = s.setDecoder i y := by
  simp [State.setDecoder]
@[simp] theorem State.setDecoder_self (i : AxisNo) : s.setDecoder i (s.decoder i) = s := by
  simp [State.setDecoder, State.decoder, vector_set_get]

@[simp] theorem State.markList_setMarkList (i : AxisNo) (x : List Mark) : (s.setMarkList i x).markList i = x := vector_get_set _ i x
theorem State.markList_setMarkList_ne {i j : AxisNo} (x : List Mark) (h : i ≠ j) : (s.setMarkList i x).markList j = s.markList j :=
  vector_get_set_ne _ i j x h
@[simp] theorem State.setMarkList_twice (i : AxisNo) (x y : List Mark) : (s.setMarkList i x).setMarkList i y = s.setMarkList i y := by
  simp [State.setMarkList]
@[simp] theorem State.setMarkList_self (i : AxisNo) : s.setMarkList i (s.markList i) = s := by
  simp [State.setMarkList, State.markList, vector_set_get]

@[simp] theorem State.output_setOutput (i : TriggerNo) (x : OutputLine) : (s.setOutput i x).output i = x := vector_get_set _ i x
theorem State.output_setOutput_ne {i j : TriggerNo} (x : OutputLine) (h : i ≠ j) : (s.setOutput i x).output j = s.output j :=
  vector_get_set_ne _ i j x h
@[simp] theorem State.setOutput_twice (i : TriggerNo) (x y : OutputLine) : (s.setOutput i x).setOutput i y = s.setOutput i y := by
  simp [State.setOutput]
@[simp] theorem State.setOutput_self (i : TriggerNo) : s.setOutput i (s.output i) = s := by
  simp [State.setOutput, State.output, vector_set_get]

@[simp] theorem State.captureLine_setCaptureLine (i : CaptureNo) (x : CaptureLine) : (s.setCaptureLine i x).captureLine i = x := vector_get_set _ i x
theorem State.captureLine_setCaptureLine_ne {i j : CaptureNo} (x : CaptureLine) (h : i ≠ j) : (s.setCaptureLine i x).captureLine j = s.captureLine j :=
  vector_get_set_ne _ i j x h
@[simp] theorem State.setCaptureLine_twice (i : CaptureNo) (x y : CaptureLine) : (s.setCaptureLine i x).setCaptureLine i y = s.setCaptureLine i y := by
  simp [State.setCaptureLine]
@[simp] theorem State.setCaptureLine_self (i : CaptureNo) : s.setCaptureLine i (s.captureLine i) = s := by
  simp [State.setCaptureLine, State.captureLine, vector_set_get]

@[simp] theorem State.sensorFilter_setSensorFilter (i : AxisNo) (x : Vector Filter 3) : (s.setSensorFilter i x).sensorFilter i = x := vector_get_set _ i x
theorem State.sensorFilter_setSensorFilter_ne {i j : AxisNo} (x : Vector Filter 3) (h : i ≠ j) : (s.setSensorFilter i x).sensorFilter j = s.sensorFilter j :=
  vector_get_set_ne _ i j x h
@[simp] theorem State.setSensorFilter_twice (i : AxisNo) (x y : Vector Filter 3) : (s.setSensorFilter i x).setSensorFilter i y = s.setSensorFilter i y := by
  simp [State.setSensorFilter]
@[simp] theorem State.setSensorFilter_self (i : AxisNo) : s.setSensorFilter i (s.sensorFilter i) = s := by
  simp [State.setSensorFilter, State.sensorFilter, vector_set_get]

@[simp] theorem State.captureFilter_setCaptureFilter (i : CaptureNo) (x : Filter) : (s.setCaptureFilter i x).captureFilter i = x := vector_get_set _ i x
theorem State.captureFilter_setCaptureFilter_ne {i j : CaptureNo} (x : Filter) (h : i ≠ j) : (s.setCaptureFilter i x).captureFilter j = s.captureFilter j :=
  vector_get_set_ne _ i j x h
@[simp] theorem State.setCaptureFilter_twice (i : CaptureNo) (x y : Filter) : (s.setCaptureFilter i x).setCaptureFilter i y = s.setCaptureFilter i y := by
  simp [State.setCaptureFilter]
@[simp] theorem State.setCaptureFilter_self (i : CaptureNo) : s.setCaptureFilter i (s.captureFilter i) = s := by
  simp [State.setCaptureFilter, State.captureFilter, vector_set_get]

@[simp] theorem State.tallyUnit_setTallyUnit (i : UnitNo) (x : TallyUnit) : (s.setTallyUnit i x).tallyUnit i = x := vector_get_set _ i x
theorem State.tallyUnit_setTallyUnit_ne {i j : UnitNo} (x : TallyUnit) (h : i ≠ j) : (s.setTallyUnit i x).tallyUnit j = s.tallyUnit j :=
  vector_get_set_ne _ i j x h
@[simp] theorem State.setTallyUnit_twice (i : UnitNo) (x y : TallyUnit) : (s.setTallyUnit i x).setTallyUnit i y = s.setTallyUnit i y := by
  simp [State.setTallyUnit]
@[simp] theorem State.setTallyUnit_self (i : UnitNo) : s.setTallyUnit i (s.tallyUnit i) = s := by
  simp [State.setTallyUnit, State.tallyUnit, vector_set_get]

@[simp] theorem State.filterEntry_setFilterEntry (i : EntryNo) (x : FilterEntry) : (s.setFilterEntry i x).filterEntry i = x := vector_get_set _ i x
theorem State.filterEntry_setFilterEntry_ne {i j : EntryNo} (x : FilterEntry) (h : i ≠ j) : (s.setFilterEntry i x).filterEntry j = s.filterEntry j :=
  vector_get_set_ne _ i j x h
@[simp] theorem State.setFilterEntry_twice (i : EntryNo) (x y : FilterEntry) : (s.setFilterEntry i x).setFilterEntry i y = s.setFilterEntry i y := by
  simp [State.setFilterEntry]
@[simp] theorem State.setFilterEntry_self (i : EntryNo) : s.setFilterEntry i (s.filterEntry i) = s := by
  simp [State.setFilterEntry, State.filterEntry, vector_set_get]

/-! ## A record formed before or after another update -/

@[simp] theorem State.formRecord_setAxis (e : RecordBody) (a : AxisNo) (x : Axis) :
    (s.formRecord e).setAxis a x = (s.setAxis a x).formRecord e := rfl
@[simp] theorem State.formRecord_setDecoder (e : RecordBody) (a : AxisNo) (d : Decoder) :
    (s.formRecord e).setDecoder a d = (s.setDecoder a d).formRecord e := rfl
@[simp] theorem State.formRecord_setMarkList (e : RecordBody) (a : AxisNo) (l : List Mark) :
    (s.formRecord e).setMarkList a l = (s.setMarkList a l).formRecord e := rfl
@[simp] theorem State.formRecord_setOutput (e : RecordBody) (n : TriggerNo) (l : OutputLine) :
    (s.formRecord e).setOutput n l = (s.setOutput n l).formRecord e := rfl
@[simp] theorem State.formRecord_setCaptureLine (e : RecordBody) (n : CaptureNo) (l : CaptureLine) :
    (s.formRecord e).setCaptureLine n l = (s.setCaptureLine n l).formRecord e := rfl
@[simp] theorem State.formRecord_setSensorFilter (e : RecordBody) (a : AxisNo) (f : Vector Filter 3) :
    (s.formRecord e).setSensorFilter a f = (s.setSensorFilter a f).formRecord e := rfl
@[simp] theorem State.formRecord_setCaptureFilter (e : RecordBody) (n : CaptureNo) (f : Filter) :
    (s.formRecord e).setCaptureFilter n f = (s.setCaptureFilter n f).formRecord e := rfl
@[simp] theorem State.formRecord_setHandler (e : RecordBody) (h : Handler) :
    (s.formRecord e).setHandler h = (s.setHandler h).formRecord e := rfl
@[simp] theorem State.formRecord_setSession (e : RecordBody) (x : Session) :
    (s.formRecord e).setSession x = (s.setSession x).formRecord e := rfl
@[simp] theorem State.formRecord_setLine (e : RecordBody) (x : LineReceiver) :
    (s.formRecord e).setLine x = (s.setLine x).formRecord e := rfl
@[simp] theorem State.formRecord_setRx (e : RecordBody) (x : Receiver) :
    (s.formRecord e).setRx x = (s.setRx x).formRecord e := rfl
@[simp] theorem State.formRecord_countDiscard (e : RecordBody) :
    (s.formRecord e).countDiscard = (s.countDiscard).formRecord e := rfl

end Sys2Proof.Machine
end

