-- ==== Sys2Proof/Laws/Handler.lean ====
section
/-!
SUPPORT. What the request handler's operations can do, said once: they change the handler and nothing else, and a request that
has passed the handler's checks is handed to its block.
-/

namespace Sys2Proof.Machine

/-! ## Numbers as they are read -/

/-- An axis number that is read. -/
theorem axisOf_eq_some {b : Byte} {a : AxisNo} : axisOf b = some a ↔ b.toNat = a.val := by
  simp only [axisOf]
  split
  · simp [Fin.ext_iff]
  · simp; omega

/-- An axis number that names no axis. -/
theorem axisOf_eq_none {b : Byte} : axisOf b = none ↔ 3 < b.toNat := by
  simp only [axisOf]
  split <;> simp <;> omega

/-- A trigger line that is read. -/
theorem triggerOf_eq_some {b : Byte} {n : TriggerNo} : triggerOf b = some n ↔ b.toNat = n.val := by
  simp only [triggerOf]
  split
  · simp [Fin.ext_iff]
  · simp; omega

/-- A number that names no trigger line. -/
theorem triggerOf_eq_none {b : Byte} : triggerOf b = none ↔ 7 < b.toNat := by
  simp only [triggerOf]
  split <;> simp <;> omega

/-- A capture line that is read. -/
theorem captureOf_eq_some {b : Byte} {n : CaptureNo} : captureOf b = some n ↔ b.toNat = n.val := by
  simp only [captureOf]
  split
  · simp [Fin.ext_iff]
  · simp; omega

/-- A number that names no capture line. -/
theorem captureOf_eq_none {b : Byte} : captureOf b = none ↔ 3 < b.toNat := by
  simp only [captureOf]
  split <;> simp <;> omega

/-- A filter entry that is read. -/
theorem entryOf_eq_some {b : Byte} {e : EntryNo} : entryOf b = some e ↔ b.toNat = e.val := by
  simp only [entryOf]
  split
  · simp [Fin.ext_iff]
  · simp; omega

/-- A number that names no filter entry. -/
theorem entryOf_eq_none {b : Byte} : entryOf b = none ↔ 15 < b.toNat := by
  simp only [entryOf]
  split <;> simp <;> omega

/-- A tally unit that is read. -/
theorem unitOf_eq_some {b : Byte} {u : UnitNo} : unitOf b = some u ↔ b.toNat = u.val := by
  simp only [unitOf]
  split
  · simp [Fin.ext_iff]
  · simp; omega

/-- An on/off option that is read. -/
theorem onOffOf_eq_some {b : Byte} {x : Bool} : onOffOf b = some x ↔ b.toNat = x.toNat := by
  simp only [onOffOf, ← BitVec.toNat_inj]
  cases x <;> (repeat' split) <;> simp_all

/-- A byte that names no on/off option. -/
theorem onOffOf_eq_none {b : Byte} : onOffOf b = none ↔ 1 < b.toNat := by
  simp only [onOffOf, ← BitVec.toNat_inj]
  (repeat' split) <;> simp_all
  omega

/-! ## Operations of the handler -/

/-- An answer changes the handler alone. -/
theorem answer_eq (r : Request) (st : Status) (l : List Byte) (s : State) :
    answer r st l s = s.setHandler
      (s.handler.complete r.slot { tag := r.tag, code := r.code, status := st, results := l }).endExecution := rfl

/-- A deferral changes the handler alone. -/
theorem deferRequest_eq (r : Request) (k : DeferredKind) (s : State) :
    deferRequest r k s = s.setHandler
      (s.handler.deferEntry { kind := k, tag := r.tag, code := r.code, slot := r.slot }).endExecution := rfl

/-- The ending of a deferred request changes the handler alone. -/
theorem endDeferred_eq (i : SlotNo) (st : Status) (l : List Byte) (s : State) :
    endDeferred i st l s = s.setHandler (endDeferred i st l s).handler := by
  unfold endDeferred
  split <;> rfl

/-- What the ending of a deferred request leaves of the handler: nothing new when no entry holds the slot, else the entry gone
and its reply completed. -/
theorem endDeferred_handler (i : SlotNo) (st : Status) (l : List Byte) (s : State) :
    ((∀ d ∈ s.handler.table, d.slot ≠ i) ∧ endDeferred i st l s = s) ∨
    (∃ d, s.handler.table.find? (fun d => d.slot == i) = some d ∧
      endDeferred i st l s = s.setHandler ((s.handler.dropEntry i).complete i
        { tag := d.tag, code := d.code, status := st, results := l })) := by
  unfold endDeferred
  split
  · next h => exact .inl ⟨by simpa using h, rfl⟩
  · next d h => exact .inr ⟨d, h, rfl⟩

/-- The start of the next request leaves the slots, the completion order, the deferred table and the mode. -/
theorem Handler.startNext_cases (h : Handler) :
    h.startNext = h ∨
    ∃ r rest, h.mode = .taking ∧ h.executing = none ∧ h.queue = r :: rest ∧
      h.startNext = { h with executing := some r, queue := rest } := by
  rcases h with ⟨queue, executing, slots, order, table, mode⟩
  cases mode <;> cases executing <;> cases queue <;> simp [Handler.startNext]

/-- While a request executes none is started. -/
theorem Handler.startNext_executing {h : Handler} {r : Request} (e : h.executing = some r) : h.startNext = h := by
  rcases h.startNext_cases with x | ⟨_, _, _, x, _⟩
  · exact x
  · simp [e] at x

@[simp] theorem Handler.startNext_slots (h : Handler) : h.startNext.slots = h.slots := by
  rcases h.startNext_cases with e | ⟨_, _, _, _, _, e⟩ <;> rw [e]

@[simp] theorem Handler.startNext_order (h : Handler) : h.startNext.order = h.order := by
  rcases h.startNext_cases with e | ⟨_, _, _, _, _, e⟩ <;> rw [e]

@[simp] theorem Handler.startNext_table (h : Handler) : h.startNext.table = h.table := by
  rcases h.startNext_cases with e | ⟨_, _, _, _, _, e⟩ <;> rw [e]

@[simp] theorem Handler.startNext_mode (h : Handler) : h.startNext.mode = h.mode := by
  rcases h.startNext_cases with e | ⟨_, _, _, _, _, e⟩ <;> rw [e]

/-- While a request executes none is started. -/
theorem State.startRequest_executing {s : State} {r : Request} (e : s.handler.executing = some r) : s.startRequest = s := by
  rw [State.startRequest, Handler.startNext_executing e, State.setHandler_self]

/-- A request that is executing and of the right length is handed to its block. -/
theorem executeAs_executing {n : RequestName} {r : Request} {s : State} (act : Request → State → State)
    (h : Executing n r s) : executeAs n act s = act r s := by
  obtain ⟨-, h1, h2, h3⟩ := h
  simp [executeAs, State.startRequest_executing h1, h1, h2, h3]

/-- A request that names an axis that exists is handed to that axis's controller. -/
theorem executeOnAxis_executing {n : RequestName} {a : AxisNo} {r : Request} {s : State}
    (act : AxisNo → Request → State → State) (h : ExecutingOn n a r s) : executeOnAxis n act s = act a r s := by
  rw [executeOnAxis, executeAs_executing _ h.1, axisOf_eq_some.mpr h.2]

/-- A command acts when RESETN is not held low. -/
theorem whenRunning_running {f : State → State} {s : State} (h : Running s) : whenRunning f s = .next (f s) := by
  simp [whenRunning, show s.resetLow = false from h]

/-- What a command does in either case. -/
theorem whenRunning_next {f : State → State} {s t : State} (h : whenRunning f s = .next t) :
    (s.resetLow = true ∧ t = s) ∨ (s.resetLow = false ∧ t = f s) := by
  cases hl : s.resetLow <;> simp [whenRunning, hl] at h <;> simp [h]

end Sys2Proof.Machine
end

