-- ==== Sys2Proof/Laws/Reports.lean ====
section
/-!
SUPPORT. What the report queue, the tally units and the record former can do, said once: a record is offered, admitted or lost;
a removal takes the old end; what is held keeps its place.
-/

namespace Sys2Proof.Machine

/-! ## The report queue -/

/-- An offer admits the record as the newest entry, or loses it and leaves the entries. -/
theorem ReportQueue.offer_cases (r : Record) (q : ReportQueue) :
    (q.entries.length < Config.queueSize ∧ q.offer r = q.append r) ∨
    (Config.queueSize ≤ q.entries.length ∧ q.offer r = { q with lost := q.lost.count r.body }) := by
  unfold ReportQueue.offer
  split
  · next h => exact .inl ⟨h, rfl⟩
  · next h => exact .inr ⟨by omega, rfl⟩

/-- An offer leaves the entries held in their places. -/
theorem ReportQueue.offer_prefix (r : Record) (q : ReportQueue) : q.entries <+: (q.offer r).entries := by
  rcases q.offer_cases r with ⟨-, h⟩ | ⟨-, h⟩ <;> rw [h]
  exact List.prefix_append _ _

/-- The GAP admission acts only when entries have gone and losses have been counted. -/
theorem ReportQueue.admitGap_cases (stamp : Word32) (n : Nat) (q : ReportQueue) :
    ((n = 0 ∨ q.lost = Loss.zero) ∧ q.admitGap stamp n = q) ∨
    (n ≠ 0 ∧ q.lost ≠ Loss.zero ∧
      q.admitGap stamp n = { q.append { stamp := stamp, body := .gap q.lost } with lost := Loss.zero }) := by
  unfold ReportQueue.admitGap
  split
  · next h => exact .inl ⟨h, rfl⟩
  · next h => exact .inr ⟨fun e => h (.inl e), fun e => h (.inr e), rfl⟩

/-- What is left of the entries after a removal, before any GAP record. -/
theorem ReportQueue.removeOldest_prefix (stamp : Word32) (n : Nat) (q : ReportQueue) :
    q.entries.drop n <+: (q.removeOldest stamp n).entries := by
  unfold ReportQueue.removeOldest
  rcases ReportQueue.admitGap_cases stamp (min n q.entries.length) { q with entries := q.entries.drop n } with
    ⟨-, h⟩ | ⟨-, -, h⟩ <;> rw [h]
  exact List.prefix_append _ _

/-- A revert leaves every record, number and send count. -/
@[simp] theorem ReportQueue.revert_records (q : ReportQueue) :
    q.revert.entries.map QueueEntry.record = q.entries.map QueueEntry.record := by
  simp [ReportQueue.revert, Function.comp_def]

@[simp] theorem ReportQueue.revert_next (q : ReportQueue) : q.revert.next = q.next := rfl
@[simp] theorem ReportQueue.revert_lost (q : ReportQueue) : q.revert.lost = q.lost := rfl

@[simp] theorem ReportQueue.revert_length (q : ReportQueue) : q.revert.entries.length = q.entries.length := by
  simp [ReportQueue.revert]

@[simp] theorem ReportQueue.revert_outstanding (q : ReportQueue) : q.revert.outstanding = 0 := by
  simp [ReportQueue.revert, ReportQueue.outstanding]

@[simp] theorem ReportQueue.revert_oldest (q : ReportQueue) : q.revert.oldest = q.oldest := by
  cases h : q.entries <;> simp [ReportQueue.revert, ReportQueue.oldest, h]

/-- Mark sent: the entries up to the oldest PENDING one stand, that one is marked, and the copy is it. -/
theorem markFirst_eq_some {l l' : List QueueEntry} {c : QueueEntry} (h : markFirst l = some (c, l')) :
    ∃ old e new, l = old ++ e :: new ∧ (∀ x ∈ old, x.state = .outstanding) ∧ e.state = .pending ∧ l' = old ++ c :: new ∧
      c = { e with state := .outstanding, sends := if e.sends < 255 then e.sends + 1 else e.sends } := by
  induction l generalizing l' with
  | nil => simp [markFirst] at h
  | cons x xs ih =>
    unfold markFirst at h
    split at h
    · next hx =>
      simp only [Option.some.injEq, Prod.mk.injEq] at h
      exact ⟨[], x, xs, rfl, by simp, hx, h.2 ▸ h.1 ▸ rfl, h.1.symm⟩
    · next hx =>
      cases hm : markFirst xs with
      | none => simp [hm] at h
      | some y =>
        obtain ⟨c', es⟩ := y
        simp only [hm, Option.some.injEq, Prod.mk.injEq] at h
        obtain ⟨rfl, rfl⟩ := h
        obtain ⟨old, e, new, h1, h2, h3, h4, h5⟩ := ih hm
        refine ⟨x :: old, e, new, by rw [h1]; rfl, ?_, h3, by rw [h4]; rfl, h5⟩
        have hs : x.state = .outstanding := by
          cases hxs : x.state
          · exact absurd hxs hx
          · rfl
        simpa [hs] using h2

/-! ## Tally units -/

/-- An increment keeps the threshold, the window and the timer. -/
theorem TallyUnit.increment_kept (t : TallyUnit) :
    t.increment.1.threshold = t.threshold ∧ t.increment.1.window = t.window ∧ t.increment.1.timer = t.timer := by
  unfold TallyUnit.increment
  split
  · exact ⟨rfl, rfl, rfl⟩
  · split <;> exact ⟨rfl, rfl, rfl⟩
  · split <;> exact ⟨rfl, rfl, rfl⟩
  · exact ⟨rfl, rfl, rfl⟩

/-! ## The record former -/

/-- A formed record leaves the filter table. -/
@[simp] theorem Reports.form_table (stamp : Word32) (b : RecordBody) (r : Reports) : (r.form stamp b).table = r.table := by
  unfold Reports.form
  split
  · rfl
  · dsimp only
    split <;> split <;> rfl

/-- A formed record leaves what the report queue holds in its place. -/
theorem Reports.form_prefix (stamp : Word32) (b : RecordBody) (r : Reports) :
    r.queue.entries <+: (r.form stamp b).queue.entries := by
  have one : ∀ (u : UnitNo) (x : Reports), x.queue.entries <+: (x.tallyOne stamp u).queue.entries := by
    intro u x
    unfold Reports.tallyOne
    dsimp only
    split
    · exact List.prefix_rfl
    · exact ReportQueue.offer_prefix _ _
  unfold Reports.form
  split
  · exact List.prefix_rfl
  · dsimp only
    split <;> split
    · exact ReportQueue.offer_prefix _ _
    · exact List.prefix_rfl
    · exact (ReportQueue.offer_prefix _ _).trans (one _ { r with queue := r.queue.offer { stamp := stamp, body := b } })
    · exact one _ _

/-- A record formed changes the reports alone. -/
theorem State.formRecord_eq (s : State) (b : RecordBody) :
    s.formRecord b = { s with reports := s.reports.form s.timebase b } := rfl

end Sys2Proof.Machine
end

