-- ==== Sys2Proof/Laws/Axes.lean ====
section
/-!
SUPPORT. What the axis controllers' and the mark schedule's shared operations can do, said once: which blocks they reach, and
their arithmetic.
-/

namespace Sys2Proof.Machine

/-! ## Arithmetic on positions -/

/-- A step up of a signed 32-bit count. -/
theorem wrap32_up {x : Int} (h : InInt32 x) : wrap32 (x + 1) = nextUp x := by
  simp only [wrap32, nextUp, Int.bmod]
  split <;> split <;> omega

/-- A step down of a signed 32-bit count. -/
theorem wrap32_down {x : Int} (h : InInt32 x) : wrap32 (x - 1) = nextDown x := by
  simp only [wrap32, nextDown, Int.bmod]
  split <;> split <;> omega

/-- A wrapped value is a signed 32-bit value. -/
theorem wrap32_inInt32 (x : Int) : InInt32 (wrap32 x) := by
  simp only [InInt32, wrap32, Int.bmod]
  split <;> omega

/-- A reduced position is one of an axis of that modulus. -/
theorem reducePosition_fits (m : Nat) (x : Int) : PositionFits m (reducePosition m x) := by
  unfold reducePosition
  refine ⟨fun h => ?_, fun h => ?_⟩
  · simpa [h] using wrap32_inInt32 x
  · simp only [h, if_false]
    exact ⟨Int.emod_nonneg _ (by omega), Int.emod_lt_of_pos _ (by omega)⟩

/-- R24: a step by the bounds of its axis. -/
theorem moveOne_eq {m : Nat} {p t : Int} (d : Direction) (hp : PositionFits m p) (ht : InInt32 t) :
    moveOne m d p t =
      (if m = 0 then (if d = .up then nextUp p else nextDown p, t)
       else if d = .up then (if p = m - 1 then (0, nextUp t) else (p + 1, t))
       else if p = 0 then ((m : Int) - 1, nextDown t) else (p - 1, t)) := by
  have down : ∀ {y}, InInt32 y → wrap32 (y + -1) = nextDown y := wrap32_down
  unfold moveOne
  split
  · next h => cases d <;> simp [Direction.sign, wrap32_up (hp.1 h), down (hp.1 h)]
  · cases d <;> simp [wrap32_up ht, wrap32_down ht]

/-- R36: the drift is the one residue above -M/2 and at or below M/2. -/
theorem AxisConfig.drift_eq {c : AxisConfig} {p r k : Int} (_h0 : c.modulus ≠ 0)
    (h : p - c.homeOffset = r + k * c.modulus) (h1 : -(c.modulus : Int) < 2 * r) (h2 : 2 * r ≤ c.modulus) :
    c.drift p = r := by
  have hm : (0 : Int) < c.modulus := by omega
  simp only [AxisConfig.drift, h, Int.add_mul_emod_self_right]
  rcases Int.lt_or_le r 0 with hr | hr
  · have : r % (c.modulus : Int) = r + c.modulus := by
      rw [← Int.add_emod_right, Int.emod_eq_of_lt] <;> omega
    rw [this, if_neg] <;> omega
  · rw [Int.emod_eq_of_lt hr (by omega), if_pos h2]

/-! ## What the operations reach -/

/-- The travel limit is judged and not reached. -/
theorem judgeTravel_below {a : AxisNo} {s : State} (h : BelowTravelLimit (s.axis a)) : judgeTravel a s = s := by
  unfold judgeTravel
  split
  · next hh hl =>
    split
    · next hle => exact absurd (h _ hh _ hl) (by omega)
    · rfl
  · rfl

/-- The end of homing reaches the axis, the reports and the handler, and nothing else. -/
theorem State.endHoming_frame (s : State) (a : AxisNo) (h : Homing) (new : AxisState) (cause : StateCause) (st : Status)
    (l : List Byte) :
    ∃ axes reports handler, s.endHoming a h new cause st l =
      { s with axes := axes, reports := reports, handler := handler } := by
  unfold State.endHoming
  rw [endDeferred_eq]
  exact ⟨_, _, _, rfl⟩

/-- A fault reaches the axis, the reports and the handler, and nothing else. -/
theorem takeFault_frame (a : AxisNo) (k : FaultKind) (s : State) :
    ∃ axes reports handler, takeFault a k s = { s with axes := axes, reports := reports, handler := handler } := by
  simp only [takeFault, State.changeState, State.formRecord_eq, State.setAxis]
  split
  · exact ⟨_, _, s.handler, rfl⟩
  · rw [endDeferred_eq]
    exact ⟨_, _, _, rfl⟩

/-- The firing of a mark reaches the trigger lines, the mark lists and the reports, and nothing else. -/
theorem State.fireMark_frame (s : State) (a : AxisNo) (arr : Arrival) (n : Nat) (m : Mark) :
    ∃ outputs marks reports, s.fireMark a arr n m =
      { s with outputs := outputs, marks := marks, reports := reports } := by
  unfold State.fireMark State.pulseAction State.releaseAction State.fireRecord
  dsimp only
  cases m.pulse <;> cases m.release <;> dsimp only <;> split <;> exact ⟨_, _, _, rfl⟩

/-- The evaluation of an arrival reaches the trigger lines, the mark lists and the reports, and nothing else. -/
theorem considerMarks_frame (a : AxisNo) (arr : Arrival) (flags : List Bool) (n : Nat) (s : State) :
    ∃ outputs marks reports, considerMarks a arr flags n s =
      { s with outputs := outputs, marks := marks, reports := reports } := by
  induction flags generalizing n s with
  | nil => exact ⟨_, _, _, rfl⟩
  | cons f fs ih =>
    unfold considerMarks
    split
    · exact ⟨_, _, _, rfl⟩
    · next m _ =>
      split
      · obtain ⟨o, k, r, h⟩ := s.fireMark_frame a arr n m
        obtain ⟨o', k', r', h'⟩ := ih n (s.fireMark a arr n m)
        exact ⟨o', k', r', by rw [h', h]⟩
      · exact ih _ _

/-- A mark that enters a list leaves the other marks in their order. -/
theorem insertMark_split (m : Mark) (l : List Mark) :
    ∃ l1 l2, l = l1 ++ l2 ∧ insertMark m l = l1 ++ m :: l2 ∧ ∀ x ∈ l1, x.position ≤ m.position := by
  induction l with
  | nil => exact ⟨[], [], rfl, rfl, by simp⟩
  | cons x xs ih =>
    unfold insertMark
    split
    · next hx =>
      obtain ⟨l1, l2, h1, h2, h3⟩ := ih
      exact ⟨x :: l1, l2, by rw [h1]; rfl, by rw [h2]; rfl, by simpa [hx] using h3⟩
    · exact ⟨[], x :: xs, rfl, rfl, by simp⟩

@[simp] theorem insertMark_length (m : Mark) (l : List Mark) : (insertMark m l).length = l.length + 1 := by
  obtain ⟨l1, l2, rfl, h, -⟩ := insertMark_split m l
  simp [h]
  omega

/-- A release arms marks and changes nothing else of a list. -/
@[simp] theorem armMatching_length (tag mask : Word16) (l : List Mark) : (armMatching tag mask l).length = l.length := by
  simp [armMatching]

end Sys2Proof.Machine
end

