-- ==== Sys2Proof/Laws/Link.lean ====
section
/-!
SUPPORT. What the receiver of characters, the link receiver and the hand-overs of a sample can do, said once: which parts of the
state they reach.
-/

namespace Sys2Proof.Machine

/-! ## Characters -/

@[simp] theorem LineReceiver.showing_level (now : Nat) (rxd : Option Bool) :
    (LineReceiver.showing now rxd).level = rxd.map fun v => (v, now) := rfl
@[simp] theorem LineReceiver.showing_char (now : Nat) (rxd : Option Bool) : (LineReceiver.showing now rxd).char = none := rfl
@[simp] theorem LineReceiver.showing_due (now : Nat) (rxd : Option Bool) : (LineReceiver.showing now rxd).due = none := rfl

/-- A reset leaves the reset values, RXD as the pins show it, and the model's own counts as they were. -/
theorem restart_eq (cause : AnnounceCause) (pins : ResetPins) (s : State) :
    restart cause pins s =
      { State.reset with
        pending := s.pending, draws := s.draws, picks := s.picks, straps := pins.straps
        line := LineReceiver.showing 0 pins.rxd, tx := Transmitter.reset cause } := rfl

/-- What a level at RXD can make of the receiver of characters: a new start bit, a noise start bit dropped, one bit more, a
character due, or the level alone. -/
theorem LineReceiver.follow_cases (broken : Bool) (bit now : Nat) (v : Bool) (x : LineReceiver) :
    let y := { x with level := some (x.reach now v) }
    x.follow broken bit now v = y
    ∨ (broken = false ∧ x.char = none ∧ v = false ∧ x.wasHigh = true
        ∧ x.follow broken bit now v = { y with char := some { edge := now, samples := [] } })
    ∨ ∃ c, broken = false ∧ x.char = some c ∧ c.edge + bitMiddle bit c.samples.length ≤ now
        ∧ ((c.samples = [] ∧ v = true ∧ x.follow broken bit now v = { y with char := none })
          ∨ (c.samples.length < 9
            ∧ x.follow broken bit now v = { y with char := some { c with samples := c.samples ++ [v] } })
          ∨ ∃ d : Character, x.follow broken bit now v = { y with char := none, due := some (d, c.edge) }) := by
  dsimp only
  unfold LineReceiver.follow
  cases broken
  · cases hc : x.char with
    | none =>
      by_cases h : x.wasHigh ∧ v = false
      · exact .inr (.inl ⟨rfl, rfl, h.2, h.1, by simp [h]⟩)
      · exact .inl (by simp [h])
    | some c =>
      by_cases hm : c.edge + bitMiddle bit c.samples.length ≤ now
      · refine .inr (.inr ⟨c, rfl, rfl, hm, ?_⟩)
        simp only [hm, if_true, LineReceiver.sampleBit, Bool.false_eq_true, if_false]
        by_cases hs : c.samples = [] ∧ v = true
        · exact .inl ⟨hs.1, hs.2, by simp [hs]⟩
        · by_cases hl : c.samples.length < 9
          · exact .inr (.inl ⟨hl, by simp [hs, hl]⟩)
          · exact .inr (.inr ⟨_, by rw [if_neg hs, if_neg hl]⟩)
      · exact .inl (by simp [hm])
  · exact .inl (by simp)

/-! ## Frames -/

/-- The empty event reaches the handler and the count of free values, and nothing else. -/
theorem emptyEvent_frame (s : State) : ∃ handler draws, emptyEvent s = { s with handler := handler, draws := draws } := by
  unfold emptyEvent endDrain
  split
  · exact ⟨_, _, rfl⟩
  · split <;> split <;> first | exact ⟨_, _, rfl⟩ | (rw [endDeferred_eq]; exact ⟨_, _, rfl⟩)

/-- A removal reaches the queue, the handler and the count of free values, and nothing else. -/
theorem afterRemoval_frame (q : ReportQueue) (s : State) :
    ∃ reports handler draws, afterRemoval q s = { s with reports := reports, handler := handler, draws := draws } := by
  unfold afterRemoval
  split
  · obtain ⟨h, d, e⟩ := emptyEvent_frame (s.setQueue q)
    exact ⟨_, h, d, e⟩
  · exact ⟨_, _, _, rfl⟩

/-- A REQUEST reaches the handler, the receiver's count and the count of free values, and nothing else. -/
theorem acceptRequest_frame (tag code : Byte) (args : List Byte) (s : State) :
    ∃ rx handler draws, acceptRequest tag code args s = { s with rx := rx, handler := handler, draws := draws } := by
  unfold acceptRequest
  split
  · exact ⟨_, _, _, rfl⟩
  · split
    · exact ⟨_, _, _, rfl⟩
    · split <;> exact ⟨_, _, _, rfl⟩

/-- A frame handed on reaches the receiver's count, the handler, the session, the report queue and the count of free values, and
nothing else. -/
theorem routeFrame_frame (f : Frame) (s : State) :
    ∃ rx handler session reports draws, routeFrame f s =
      { s with rx := rx, handler := handler, session := session, reports := reports, draws := draws } := by
  have heard : ∃ session, hostHeard s = { s with session := session } := by
    unfold hostHeard
    split <;> exact ⟨_, rfl⟩
  obtain ⟨x, hx⟩ := heard
  unfold routeFrame
  rw [hx]
  dsimp only
  split
  · exact ⟨_, _, _, _, _, rfl⟩
  · split
    · obtain ⟨rx, h, d, e⟩ := acceptRequest_frame (arg8 f.body 0) (arg8 f.body 1) (f.body.drop 2) { s with session := x }
      exact ⟨rx, h, x, _, d, e⟩
    · split
      · unfold takeAck
        dsimp only
        split
        · obtain ⟨r, h, d, e⟩ := afterRemoval_frame _ _
          exact ⟨_, h, _, r, d, e⟩
        · exact ⟨_, _, _, _, _, rfl⟩
      · unfold takeNak
        dsimp only
        split
        · obtain ⟨r, h, d, e⟩ := afterRemoval_frame _ _
          exact ⟨_, h, _, r, d, e⟩
        · exact ⟨_, _, _, _, _, rfl⟩

/-- The judging of bytes reaches what frames handed on reach, and nothing else. -/
theorem judgeBytes_frame (fuel : Nat) (bytes : List Byte) (s : State) :
    ∃ rx handler session reports draws, judgeBytes fuel bytes s =
      { s with rx := rx, handler := handler, session := session, reports := reports, draws := draws } := by
  induction fuel generalizing bytes s with
  | zero => exact ⟨_, _, _, _, _, rfl⟩
  | succ fuel ih =>
    cases bytes with
    | nil => exact ⟨_, _, _, _, _, rfl⟩
    | cons b rest =>
      unfold judgeBytes
      split
      · next y _ => exact ih rest (s.setRx y)
      · next y f _ =>
        obtain ⟨_, _, _, _, _, routed⟩ := routeFrame_frame f (s.setRx y)
        obtain ⟨r, h, x, p, d, e⟩ := ih rest (routeFrame f (s.setRx y))
        exact ⟨r, h, x, p, d, by rw [e, routed]; rfl⟩
      · next y held _ => exact ih (held ++ rest) (s.setRx y).countDiscard

/-- Bytes received reach what frames handed on reach, and nothing else. -/
theorem receiveBytes_frame (bytes : List Byte) (s : State) :
    ∃ rx handler session reports draws, receiveBytes bytes s =
      { s with rx := rx, handler := handler, session := session, reports := reports, draws := draws } :=
  judgeBytes_frame _ _ _

/-- A character handed on reaches the receiver of characters and what frames handed on reach, and nothing else. -/
theorem takeCharacter_frame (s : State) :
    ∃ line rx handler session reports draws, takeCharacter s =
      { s with line := line, rx := rx, handler := handler, session := session, reports := reports, draws := draws } := by
  unfold takeCharacter takeRxdByte takeDiscard discardFrame
  split
  · exact ⟨_, _, _, _, _, _, rfl⟩
  · split
    · exact ⟨_, _, _, _, _, _, rfl⟩
    · split
      · obtain ⟨r, h, x, p, d, e⟩ := receiveBytes_frame _ s.dropDue
        exact ⟨_, r, h, x, p, d, e⟩
      · exact ⟨_, _, _, _, _, _, rfl⟩
  · dsimp only
    split
    · exact ⟨_, _, _, _, _, _, rfl⟩
    · split
      · split
        · exact ⟨_, _, _, _, _, _, rfl⟩
        · obtain ⟨r, h, x, p, d, e⟩ := receiveBytes_frame s.dropDue.rx.held (s.dropDue.setRx s.dropDue.rx.toHunt).countDiscard
          exact ⟨_, r, h, x, p, d, e⟩
      · exact ⟨_, _, _, _, _, _, rfl⟩

/-! ## The hand-overs of a sample -/

/-- What the hand-overs of a sample leave as it stands: the queue of commands, the clock and the timebase, the pins sampled at
the reset, the filters and the transmitter. -/
structure SameOutside (s t : State) : Prop where
  pending : t.pending = s.pending
  resetLow : t.resetLow = s.resetLow
  clock : t.clock = s.clock
  tickedAt : t.tickedAt = s.tickedAt
  timebase : t.timebase = s.timebase
  straps : t.straps = s.straps
  sensorFilters : t.sensorFilters = s.sensorFilters
  captureFilters : t.captureFilters = s.captureFilters
  tx : t.tx = s.tx

theorem SameOutside.refl (s : State) : SameOutside s s := ⟨rfl, rfl, rfl, rfl, rfl, rfl, rfl, rfl, rfl⟩

theorem SameOutside.trans {s t u : State} (h : SameOutside s t) (k : SameOutside t u) : SameOutside s u :=
  ⟨k.1.trans h.1, k.2.trans h.2, k.3.trans h.3, k.4.trans h.4, k.5.trans h.5, k.6.trans h.6, k.7.trans h.7, k.8.trans h.8,
    k.9.trans h.9⟩

/-- A state that differs in the parts a sample's hand-overs reach. -/
theorem SameOutside.of_eq {s t : State} (h : ∃ decoders axes marks outputs captures reports line rx handler session draws picks,
    t = { s with decoders := decoders, axes := axes, marks := marks, outputs := outputs, captures := captures, reports := reports,
                 line := line, rx := rx, handler := handler, session := session, draws := draws, picks := picks }) :
    SameOutside s t := by
  obtain ⟨_, _, _, _, _, _, _, _, _, _, _, _, rfl⟩ := h
  exact ⟨rfl, rfl, rfl, rfl, rfl, rfl, rfl, rfl, rfl⟩

theorem SameOutside.takeFault (a : AxisNo) (k : FaultKind) (s : State) : SameOutside s (takeFault a k s) := by
  obtain ⟨_, _, _, e⟩ := takeFault_frame a k s
  exact e ▸ .of_eq ⟨_, _, _, _, _, _, _, _, _, _, _, _, rfl⟩

theorem SameOutside.formRecord (s : State) (b : RecordBody) : SameOutside s (s.formRecord b) :=
  s.formRecord_eq b ▸ .of_eq ⟨_, _, _, _, _, _, _, _, _, _, _, _, rfl⟩

theorem SameOutside.endHoming (s : State) (a : AxisNo) (h : Homing) (new : AxisState) (cause : StateCause) (st : Status)
    (l : List Byte) : SameOutside s (s.endHoming a h new cause st l) := by
  obtain ⟨_, _, _, e⟩ := s.endHoming_frame a h new cause st l
  exact e ▸ .of_eq ⟨_, _, _, _, _, _, _, _, _, _, _, _, rfl⟩

theorem SameOutside.setDecoder (s : State) (a : AxisNo) (d : Decoder) : SameOutside s (s.setDecoder a d) :=
  ⟨rfl, rfl, rfl, rfl, rfl, rfl, rfl, rfl, rfl⟩

theorem SameOutside.setAxis (s : State) (a : AxisNo) (x : Axis) : SameOutside s (s.setAxis a x) :=
  ⟨rfl, rfl, rfl, rfl, rfl, rfl, rfl, rfl, rfl⟩

theorem SameOutside.setCaptureLine (s : State) (n : CaptureNo) (x : CaptureLine) : SameOutside s (s.setCaptureLine n x) :=
  ⟨rfl, rfl, rfl, rfl, rfl, rfl, rfl, rfl, rfl⟩

theorem SameOutside.release (s : State) (a : AxisNo) (tag mask : Word16) : SameOutside s (s.release a tag mask) :=
  ⟨rfl, rfl, rfl, rfl, rfl, rfl, rfl, rfl, rfl⟩

theorem SameOutside.judgeTravel (a : AxisNo) (s : State) : SameOutside s (judgeTravel a s) := by
  unfold Machine.judgeTravel
  split
  · split
    · exact .endHoming ..
    · exact .refl s
  · exact .refl s

theorem SameOutside.takePattern (a : AxisNo) (s : State) : SameOutside s (takePattern a s) := by
  unfold Machine.takePattern
  dsimp only
  split
  · split
    · exact .setDecoder ..
    · split
      · exact .setDecoder ..
      · exact .setDecoder ..
      all_goals
        split
        all_goals first
          | exact .setDecoder ..
          | exact (SameOutside.setDecoder ..).trans (.takeFault ..)
  · exact .refl s

theorem SameOutside.takeArrival (a : AxisNo) (s : State) : SameOutside s (takeArrival a s) := by
  unfold Machine.takeArrival
  split
  · exact .refl s
  · obtain ⟨_, _, _, e⟩ := considerMarks_frame a ‹_› ((marksAt (Arrival.position ‹_›) (s.markList a)).map fun m => m.armed) 0
      (s.setAxis a { s.axis a with arrival := none })
    exact e ▸ .of_eq ⟨_, _, _, _, _, _, _, _, _, _, _, _, rfl⟩

theorem SameOutside.takeStep (a : AxisNo) (s : State) : SameOutside s (takeStep a s) := by
  unfold Machine.takeStep
  dsimp only
  split
  · split
    · exact .refl s
    · split
      · split
        · exact ((SameOutside.setDecoder ..).trans (.setAxis ..)).trans (.judgeTravel ..)
        · exact (SameOutside.setDecoder ..).trans (.setAxis ..)
      · exact .setDecoder ..
  · exact .refl s

theorem SameOutside.takeSkip (a : AxisNo) (s : State) : SameOutside s (takeSkip a s) := by
  unfold Machine.takeSkip
  dsimp only
  split
  · split
    · exact .refl s
    · exact (SameOutside.setDecoder ..).trans (.formRecord ..)
  · exact .refl s

theorem SameOutside.reportIndex (s : State) (a : AxisNo) (drift : Option Int) (corrected : Bool) :
    SameOutside s (s.reportIndex a drift corrected) := by
  unfold State.reportIndex
  split
  · exact .formRecord ..
  · exact .refl s

theorem SameOutside.checkIndex (a : AxisNo) (s : State) : SameOutside s (checkIndex a s) := by
  unfold Machine.checkIndex
  dsimp only
  split
  · split
    · exact (SameOutside.reportIndex ..).trans (.setAxis ..)
    · exact .reportIndex ..
  · exact (SameOutside.reportIndex ..).trans (.takeFault ..)

theorem SameOutside.useIndex (a : AxisNo) (d : Direction) (s : State) : SameOutside s (useIndex a d s) := by
  unfold Machine.useIndex
  dsimp only
  split
  · exact .reportIndex ..
  · split
    · exact .checkIndex ..
    · exact .reportIndex ..
  · split
    · exact .refl s
    · split
      · exact (SameOutside.setAxis ..).trans (.endHoming ..)
      · exact .reportIndex ..
  · exact .refl s
  · exact .refl s

theorem SameOutside.takeIndex (a : AxisNo) (s : State) : SameOutside s (takeIndex a s) := by
  unfold Machine.takeIndex
  dsimp only
  split
  · exact .refl s
  · split
    · exact .refl s
    · split
      · split
        · exact ((SameOutside.setDecoder ..).trans (.useIndex ..)).trans (.judgeTravel ..)
        · exact (SameOutside.setDecoder ..).trans (.judgeTravel ..)
      · exact .setDecoder ..

theorem SameOutside.takeCaptureEdge (n : CaptureNo) (s : State) : SameOutside s (takeCaptureEdge n s) := by
  unfold Machine.takeCaptureEdge makeCapture
  dsimp only
  split
  · exact .refl s
  · split
    · exact .refl s
    · split
      · split
        · exact .setCaptureLine ..
        · exact (SameOutside.setCaptureLine ..).trans (.formRecord ..)
      · exact .setCaptureLine ..

theorem SameOutside.takeCaptureClaim (n : CaptureNo) (s : State) : SameOutside s (takeCaptureClaim n s) := by
  unfold Machine.takeCaptureClaim
  dsimp only
  split
  · exact .refl s
  · exact ((SameOutside.setCaptureLine ..).trans (.release ..)).trans (.formRecord ..)

theorem SameOutside.takeCharacter (s : State) : SameOutside s (takeCharacter s) := by
  obtain ⟨_, _, _, _, _, _, e⟩ := takeCharacter_frame s
  exact e ▸ .of_eq ⟨_, _, _, _, _, _, _, _, _, _, _, _, rfl⟩

/-- One hand-over. -/
theorem SameOutside.takeNext (x : Agent) (s : State) : SameOutside s (takeNext x s) := by
  unfold Machine.takeNext
  split
  · split
    · exact .takePattern ..
    · split
      · exact .takeArrival ..
      · split
        · exact .takeStep ..
        · exact .takeSkip ..
        · exact .takeIndex ..
  · split
    · exact .takeCaptureClaim ..
    · exact .takeCaptureEdge ..
  · exact .takeCharacter s

/-- The settling before a sample. -/
theorem SameOutside.settle (fuel : Nat) (s : State) : SameOutside s (settle fuel s) := by
  induction fuel generalizing s with
  | zero => exact .refl s
  | succ fuel ih =>
    unfold Machine.settle
    split
    · exact .refl s
    · exact (SameOutside.takeNext ..).trans (ih _)
    · exact (SameOutside.trans (.of_eq ⟨_, _, _, _, _, _, _, _, _, _, _, _, rfl⟩) (.takeNext ..)).trans (ih _)

/-- A clock period passes. -/
theorem passPeriod_clock (rxd : Option Bool) (s : State) : (passPeriod rxd s).clock = s.clock + 1 := by
  simp [passPeriod, State.followRxd, State.setLine, (SameOutside.settle s.work s).clock]

/-- Clock periods pass. -/
theorem passPeriods_clock (n : Nat) (s : State) : (passPeriods n s).clock = s.clock + n := by
  induction n generalizing s with
  | zero => rfl
  | succ n ih => rw [passPeriods, ih, passPeriod_clock]; omega

/-- With nothing to take, settling leaves the state. -/
theorem settle_idle (fuel : Nat) {s : State} (h : s.waiting = []) : settle fuel s = s := by
  cases fuel <;> simp [settle, h]

end Sys2Proof.Machine
end

