-- ==== Sys2Proof/Laws/PerInstr.lean ====
section
/-!
SUPPORT. Statements about every command as syntax, proved command by command.
-/

namespace Sys2Proof.Laws.WellFormedForm

-- Each lemma waits for the kernel, so they are elaborated one after another and not all at once.
set_option Elab.async false

open Sys2Proof.Machine

/-- The good frame that a command stands for (10.2). -/
def carried : Instr → Option Frame
  | .requestFrame tag code args => some { kind := kindRequest, body := tag :: code :: args }
  | .ackFrame n => some { kind := kindAck, body := bytes16 n }
  | .nakFrame n => some { kind := kindNak, body := bytes16 n }
  | .wrongKindFrame kind body => some { kind := kind, body := body }
  | _ => none

/-- The bytes whose frame a command discards (R129). -/
def discarded : Instr → Option (List Byte)
  | .frameDiscard (.damaged held) => some held
  | _ => none

/-- A command is well formed exactly when the frame it stands for has a body that its LEN can count and is one that R131
discards just in the command for such frames, and the bytes it discards are those of a damaged frame. -/
def Statement (i : Instr) : Prop :=
  i.wellFormed = true ↔
    (∀ f ∈ carried i, f.body.length ≤ 199 ∧ (wrongKind f = true ↔ ∃ kind body, i = .wrongKindFrame kind body))
      ∧ ∀ held ∈ discarded i, damagedBytes held = true

theorem powerOn (pins : ResetPins) : Statement (.powerOn pins) := by
  simp [Statement, carried, discarded, Instr.wellFormed]
theorem resetPin : Statement .resetPin := by simp [Statement, carried, discarded, Instr.wellFormed]
theorem resetPinRelease (pins : ResetPins) : Statement (.resetPinRelease pins) := by
  simp [Statement, carried, discarded, Instr.wellFormed]
theorem patternChange (axis : AxisNo) : Statement (.patternChange axis) := by
  simp [Statement, carried, discarded, Instr.wellFormed]
theorem step (axis : AxisNo) : Statement (.step axis) := by simp [Statement, carried, discarded, Instr.wellFormed]
theorem skipNotice (axis : AxisNo) : Statement (.skipNotice axis) := by
  simp [Statement, carried, discarded, Instr.wellFormed]
theorem indexArrival (axis : AxisNo) : Statement (.indexArrival axis) := by
  simp [Statement, carried, discarded, Instr.wellFormed]
theorem arrivalEvaluation (axis : AxisNo) : Statement (.arrivalEvaluation axis) := by
  simp [Statement, carried, discarded, Instr.wellFormed]
theorem captureEdge (line : CaptureNo) : Statement (.captureEdge line) := by
  simp [Statement, carried, discarded, Instr.wellFormed]
theorem captureReleaseClaim (line : CaptureNo) : Statement (.captureReleaseClaim line) := by
  simp [Statement, carried, discarded, Instr.wellFormed]
theorem pulseExpiry (line : TriggerNo) : Statement (.pulseExpiry line) := by
  simp [Statement, carried, discarded, Instr.wellFormed]
theorem holdoffExpiry (line : CaptureNo) : Statement (.holdoffExpiry line) := by
  simp [Statement, carried, discarded, Instr.wellFormed]
theorem speedGateExpiry (axis : AxisNo) : Statement (.speedGateExpiry axis) := by
  simp [Statement, carried, discarded, Instr.wellFormed]
theorem homingTimerExpiry (axis : AxisNo) : Statement (.homingTimerExpiry axis) := by
  simp [Statement, carried, discarded, Instr.wellFormed]
theorem tallyWindowExpiry (unit : UnitNo) : Statement (.tallyWindowExpiry unit) := by
  simp [Statement, carried, discarded, Instr.wellFormed]
theorem requestFrame (tag code : Byte) (args : List Byte) : Statement (.requestFrame tag code args) := by
  simp [Statement, carried, discarded, Instr.wellFormed, wrongKind, kindRequest]
  omega
theorem ackFrame (seq : Word16) : Statement (.ackFrame seq) := by
  simp [Statement, carried, discarded, Instr.wellFormed, wrongKind, kindAck, kindNak, kindRequest, bytes16]
theorem nakFrame (seq : Word16) : Statement (.nakFrame seq) := by
  simp [Statement, carried, discarded, Instr.wellFormed, wrongKind, kindAck, kindNak, kindRequest, bytes16]
theorem frameDiscard (cause : Discard) : Statement (.frameDiscard cause) := by
  cases cause <;> simp [Statement, carried, discarded, Instr.wellFormed]
theorem wrongKindFrame (kind : Byte) (body : List Byte) : Statement (.wrongKindFrame kind body) := by
  simp [Statement, carried, discarded, Instr.wellFormed]
theorem gapTimerExpiry : Statement .gapTimerExpiry := by simp [Statement, carried, discarded, Instr.wellFormed]
theorem breakDetected : Statement .breakDetected := by simp [Statement, carried, discarded, Instr.wellFormed]
theorem breakEnd : Statement .breakEnd := by simp [Statement, carried, discarded, Instr.wellFormed]
theorem arbiterChoice : Statement .arbiterChoice := by simp [Statement, carried, discarded, Instr.wellFormed]
theorem frameCompletion (straps : BitVec 2) : Statement (.frameCompletion straps) := by
  simp [Statement, carried, discarded, Instr.wellFormed]
theorem ackTimerExpiry : Statement .ackTimerExpiry := by simp [Statement, carried, discarded, Instr.wellFormed]
theorem drainTimerExpiry : Statement .drainTimerExpiry := by simp [Statement, carried, discarded, Instr.wellFormed]
theorem unknownRequest : Statement .unknownRequest := by simp [Statement, carried, discarded, Instr.wellFormed]
theorem identify : Statement .identify := by simp [Statement, carried, discarded, Instr.wellFormed]
theorem status : Statement .status := by simp [Statement, carried, discarded, Instr.wellFormed]
theorem time : Statement .time := by simp [Statement, carried, discarded, Instr.wellFormed]
theorem configureAxis : Statement .configureAxis := by simp [Statement, carried, discarded, Instr.wellFormed]
theorem enableAxis : Statement .enableAxis := by simp [Statement, carried, discarded, Instr.wellFormed]
theorem disableAxis : Statement .disableAxis := by simp [Statement, carried, discarded, Instr.wellFormed]
theorem clearFault : Statement .clearFault := by simp [Statement, carried, discarded, Instr.wellFormed]
theorem setPosition : Statement .setPosition := by simp [Statement, carried, discarded, Instr.wellFormed]
theorem queryAxis : Statement .queryAxis := by simp [Statement, carried, discarded, Instr.wellFormed]
theorem home : Statement .home := by simp [Statement, carried, discarded, Instr.wellFormed]
theorem addMarks : Statement .addMarks := by simp [Statement, carried, discarded, Instr.wellFormed]
theorem removeMarks : Statement .removeMarks := by simp [Statement, carried, discarded, Instr.wellFormed]
theorem releaseMarks : Statement .releaseMarks := by simp [Statement, carried, discarded, Instr.wellFormed]
theorem listMarks : Statement .listMarks := by simp [Statement, carried, discarded, Instr.wellFormed]
theorem configureOutput : Statement .configureOutput := by simp [Statement, carried, discarded, Instr.wellFormed]
theorem pulseOutput : Statement .pulseOutput := by simp [Statement, carried, discarded, Instr.wellFormed]
theorem configureCapture : Statement .configureCapture := by simp [Statement, carried, discarded, Instr.wellFormed]
theorem setFilter : Statement .setFilter := by simp [Statement, carried, discarded, Instr.wellFormed]
theorem readFilter : Statement .readFilter := by simp [Statement, carried, discarded, Instr.wellFormed]
theorem configureTally : Statement .configureTally := by simp [Statement, carried, discarded, Instr.wellFormed]
theorem readTally : Statement .readTally := by simp [Statement, carried, discarded, Instr.wellFormed]
theorem openSession : Statement .openSession := by simp [Statement, carried, discarded, Instr.wellFormed]
theorem closeSession : Statement .closeSession := by simp [Statement, carried, discarded, Instr.wellFormed]
theorem drain : Statement .drain := by simp [Statement, carried, discarded, Instr.wellFormed]
theorem abort : Statement .abort := by simp [Statement, carried, discarded, Instr.wellFormed]
theorem resetDevice : Statement .resetDevice := by simp [Statement, carried, discarded, Instr.wellFormed]
theorem sample (sensors : BitVec 12) (lines : LinePins) : Statement (.sample sensors lines) := by
  simp [Statement, carried, discarded, Instr.wellFormed]
theorem timebaseTick : Statement .timebaseTick := by simp [Statement, carried, discarded, Instr.wellFormed]
theorem rxdByte (byte : Byte) : Statement (.rxdByte byte) := by simp [Statement, carried, discarded, Instr.wellFormed]

end Sys2Proof.Laws.WellFormedForm
end

