-- ==== Sys2Proof/Tests/Slice0.lean ====
section
/-!
SUPPORT. Tests. First the checks of WellFormed with terms they refuse; then the worked examples of the spec, with the expected
values taken from its tables; then, for each statement with hypotheses, states and operands that meet them, at the bounds of
their ranges.
-/

open Sys2Proof Sys2Proof.Machine

namespace Sys2Proof.Tests

-- Each test waits for the kernel, so they are elaborated one after another and not all at once.
set_option Elab.async false

/-! ## Small states -/

/-- A counting axis in a state and mode at a position. -/
def counting (st : AxisState) (mode : InputMode) (p : Int) : Axis :=
  { Axis.reset with
    state := st, position := p, gateTimer := some 200000, config := { AxisConfig.reset with mode := mode } }

/-- The accepted levels of the three sensor filters of axis 0, from a pattern of three bits. -/
def showing (p : BitVec 3) (s : State) : State :=
  s.setSensorFilter 0
    #v[{ accepted := some (p.getLsbD 0), run := 0 }, { accepted := some (p.getLsbD 1), run := 0 },
       { accepted := some (p.getLsbD 2), run := 0 }]

/-- A decoder with current pattern `p`, not awaiting one. -/
def decoderAt (p : BitVec 3) : Decoder := { Decoder.reset with current := p, awaiting := false }

/-- A request of code `n` executing with some arguments, in reply slot 0. -/
def request (n : RequestName) (args : List Byte) : Request := { tag := 9, code := n.code, args := args, slot := 0 }

/-- A state in which a request executes. -/
def executing (n : RequestName) (args : List Byte) (s : State) : State :=
  s.setHandler
    { (s.handler.setSlot 0 (.reserved 9 n.code)) with executing := some (request n args) }

/-- The reply in slot 0, when the outcome is a next state with one. -/
def replyOf (o : Host.Outcome State Fault Refusal) : Option (Status × List Byte) :=
  match o with
  | .next t => match t.handler.slots.get 0 with
    | .completed r => some (r.status, r.results)
    | _ => none
  | _ => none

/-- What a command leaves, or the state as it was. -/
def after (c : Instr) (s : State) : State :=
  match exec c s with
  | .next t => t
  | _ => s

/-- A sample with every pin low but RXD, which stays as it was. -/
def quiet : Instr := .sample 0 { captures := 0, rxd := none }

/-- A state whose receiver of characters holds what is given. -/
def hearing (level : Option (Bool × Nat)) (char : Option Incoming) (due : Option (Character × Nat)) (s : State) : State :=
  s.setLine { level := level, char := char, due := due }

/-! ## WellFormed -/

/-- A REQUEST whose LEN would be 201 is no frame (7.2); one of 200 is. -/
theorem test_wellFormed_request :
    (Instr.requestFrame 0 0 (List.replicate 198 0)).wellFormed = false
      ∧ (Instr.requestFrame 0 0 (List.replicate 197 0)).wellFormed = true := by decide +kernel

/-- A frame that R131 does not discard is no command of a wrong kind: a REQUEST of two bytes, an ACK of two; and so is one that
is too long. -/
theorem test_wellFormed_wrongKind :
    (Instr.wrongKindFrame 0x51 [0, 0]).wellFormed = false ∧ (Instr.wrongKindFrame 0x52 [0, 0]).wellFormed = false
      ∧ (Instr.wrongKindFrame 0x99 (List.replicate 200 0)).wellFormed = false
      ∧ (Instr.wrongKindFrame 0x51 [0]).wellFormed = true ∧ (Instr.wrongKindFrame 0xA1 []).wellFormed = true := by decide +kernel

/-- Bytes of a good frame, or of part of one, are not those of a damaged frame (R129). -/
theorem test_wellFormed_damaged :
    (Instr.frameDiscard (.damaged [])).wellFormed = false ∧ (Instr.frameDiscard (.damaged [3, 0x52])).wellFormed = false
      ∧ (Instr.frameDiscard (.damaged ([3, 0x52, 0, 7] ++ bytes16 (crc [3, 0x52, 0, 7])))).wellFormed = false
      ∧ (Instr.frameDiscard (.damaged [201])).wellFormed = true := by decide +kernel

/-- The table gives no row any bits, so no word spells a command. -/
theorem test_decode_none : decodeTableWord 16 0 = none ∧ State.reset.withFetchWord 8 0x9C = State.reset := ⟨rfl, rfl⟩

/-! ## The worked examples of the spec -/

/-- 1.11: filter acceptance with depth 3, the eight samples of the table. -/
theorem test_filter_depth_3 :
    ([true, true, false, true, true, true, false, true].foldl
      (fun (x : Filter × List (Nat × Option Bool × Option Edge)) l =>
        ((x.1.sample 3 l).1, x.2 ++ [((x.1.sample 3 l).1.run, (x.1.sample 3 l).1.accepted, (x.1.sample 3 l).2)]))
      ({ accepted := some false, run := 0 }, [])).2 =
    [(1, some false, none), (2, some false, none), (0, some false, none), (1, some false, none), (2, some false, none),
     (0, some true, some .rising), (1, some true, none), (0, some true, none)] := by decide

/-- 1.11: a HALL3 axis moves two ahead, 110 to 011: an inferred step, a step and a skip notice, UP. -/
theorem test_hall_two_ahead :
    judgePattern .hall3 false (decoderAt 0b011) 0b110 = .double .up ∧ judgePattern .hall3 false (decoderAt 0b110) 0b010 = .single .down
      ∧ judgePattern .hall3 false (decoderAt 0b010) 0b000 = .invalid
      ∧ judgePattern .hall3 false (decoderAt 0b101) 0b001 = .single .up := by decide

/-- 1.11: an index edge on the sample of a step DOWN: pattern 11 to 10, and Z falling, at position 5000. -/
theorem test_index_with_step :
    ((after (.patternChange 0) ((showing 0b001 ((State.reset.setAxis 0 (counting .referenced .quadIndex 5000)).setDecoder 0
        { decoderAt 0b011 with patternDue := true, zDue := some .falling })))).decoder 0).results = [.step .down false]
      ∧ (after (.step 0) ((State.reset.setAxis 0 (counting .referenced .quadIndex 5000)).setDecoder 0
        { decoderAt 0b001 with direction := .down, zDue := some .falling, results := [.step .down false] })).axis 0 =
          { counting .referenced .quadIndex 4999 with
            net := -1, stepped := 4999, arrival := some { position := 4999, direction := .down, inferred := false } } := by
  decide +kernel

/-- 2.6: the index check with correction across the wrap: M 10 000, H 0, tolerance 4, found at 9998 with turns 41; and found
at 5. -/
theorem test_index_drift :
    let c : AxisConfig :=
      { AxisConfig.reset with
        mode := .quadIndex, modulus := 10000, indexReports := true, indexCheck := true, correction := true }
    c.drift 9998 = -2 ∧ correctedTurns 10000 9998 (-2) 41 = 42 ∧ c.drift 5 = 5
      ∧ ((after (.indexArrival 0) ((State.reset.setAxis 0 { counting .referenced .quadIndex 9998 with
            config := c, turns := 41 }).setDecoder 0 { decoderAt 0 with zDue := some .rising })).axis 0).position = 0 := by
  decide +kernel

/-- 3.12: the five marks of the example. -/
def exampleMarks : List Mark :=
  let one : Mark :=
    { tag := 12, position := 1000, qualifier := .down, count := .counted 1, pitch := none, armed := true, pulse := none,
      capture := none, release := none, report := true }
  [{ one with tag := 10, qualifier := .up, count := .counted 3, pitch := some 500, pulse := some 2 },
   { one with tag := 11, qualifier := .either, armed := false, pulse := some 3 }, one,
   { one with tag := 13, qualifier := .up, release := some (0, 11) },
   { one with
     tag := 20, position := 1500, qualifier := .up, count := .endless, pitch := some 500, pulse := some 2,
     capture := some 0b0011, report := false }]

/-- The arrival of an axis 0 that holds the example's marks. -/
def arriving (p : Int) (d : Direction) (l : List Mark) : State :=
  (State.reset.setAxis 0 { counting .referenced .quadIndex p with
    arrival := some { position := p, direction := d, inferred := false } }).setMarkList 0 l

/-- 3.12: the arrival at 1000 UP fires tags 10 and 13 and leaves the list of the table, and two FIRE records. -/
theorem test_arrival_1000 :
    ((after (.arrivalEvaluation 0) (arriving 1000 .up exampleMarks)).markList 0).map
        (fun m => (m.tag, m.position, m.count, m.armed)) =
      [(11, 1000, .counted 1, true), (12, 1000, .counted 1, true), (20, 1500, .endless, true), (10, 1500, .counted 2, true)]
    ∧ (after (.arrivalEvaluation 0) (arriving 1000 .up exampleMarks)).reportQueue.entries.length = 2 := by decide +kernel

/-- 3.2, R63: a mark come down to count 1 is listed without its pitch: an entry of 7 bytes, 3 for the count, 4 absent fields and
the flag; with count 2 the pitch takes 4 more. -/
theorem test_list_last_firing :
    let m : Mark := { (exampleMarks.getD 0 (exampleMarks.headD
      { tag := 0, position := 0, qualifier := .up, count := .endless, pitch := none, armed := true, pulse := none, capture := none,
        release := none, report := true })) with pulse := none }
    { m with count := .counted 1 }.bytes.length = 15 ∧ { m with count := .counted 2 }.bytes.length = 19
      ∧ ((readMark { m with count := .counted 1 }.bytes).1.judge 0 true).isSome = true := by decide +kernel

/-- 4.4: a line of width 100 µs at 1000, claimed again at 1040, under each policy. -/
theorem test_pulse_policies :
    ({ OutputLine.reset with width := 100, active := true, pulseEnd := some 1100 }.claim 1140) =
        ({ OutputLine.reset with width := 100, active := true, pulseEnd := some 1140 }, true)
      ∧ ({ OutputLine.reset with width := 100, policy := .refuse, active := true, pulseEnd := some 1100 }.claim 1140).2 = false :=
  by decide

/-- 4.4: the capture of line C1 at 10 000 µs: one entry each of axes 0 and 2, two HELD marks with tag 7 armed. -/
theorem test_capture_release :
    let mark (armed : Bool) : Mark := { (exampleMarks.getD 2 (exampleMarks.headD
      { tag := 0, position := 0, qualifier := .up, count := .endless, pitch := none, armed := true, pulse := none, capture := none,
        release := none, report := true })) with tag := 7, armed := armed }
    let s := ((State.reset.setAxis 0 (counting .referenced .quad 4000)).setAxis 2 (counting .free .quad (-35))).setMarkList 2
      [mark false, mark true, mark false]
    s.snapshot 0b0101 none =
        [{ axis := 0, status := .referenced, position := 4000 }, { axis := 2, status := .unreferenced, position := -35 }]
      ∧ releasedCount 7 exactMask (s.markList 2) = 2 ∧ releasedCount 7 exactMask ((s.release 2 7 exactMask).markList 2) = 0 := by
  decide +kernel

/-- 5.5: the filter table of the example. -/
def exampleTable : Vector FilterEntry 16 :=
  ((((Vector.replicate 16 FilterEntry.reset).set 0
      { FilterEntry.reset with
        enabled := true, kinds := 0b000001, axes := 0b00001, keyValue := 256, keyMask := 65280, flagsMask := 0b010,
        verdict := .discard, tally := some 2 }).set 1
      { FilterEntry.reset with
        enabled := true, kinds := 0b100000, axes := 0b01111, keyValue := 4, keyMask := 65535, tally := some 5 }).set 2
      { FilterEntry.reset with enabled := true, kinds := 0b101100, axes := 0b01111, verdict := .discard }).set 3
      { FilterEntry.reset with
        enabled := true, kinds := 0b000010, axes := 0b10000, keyValue := 1, keyMask := 65535, tally := some 3 }

/-- 5.5: the records of the example: FIRE 300 with FINAL clear and set, FIRE on axis 1, FIRE 512, STATE into FAULTED, FAULT,
STATE into FREE, INDEX, CAPTURE of C1 and of C0. -/
theorem test_filter_table :
    ([⟨0, some 0, 300, 0b000⟩, ⟨0, some 0, 300, 0b010⟩, ⟨0, some 1, 300, 0b000⟩, ⟨0, some 0, 512, 0b000⟩,
      ⟨5, some 2, 4, 0⟩, ⟨4, some 2, 1, 0⟩, ⟨5, some 2, 1, 0⟩, ⟨2, some 3, 0, 0⟩, ⟨1, none, 1, 0⟩, ⟨1, none, 0, 0⟩] :
        List View).map (judgeRecord exampleTable) =
    [(.discard, some 2), (.deliver, none), (.deliver, none), (.deliver, none), (.deliver, some 5), (.deliver, none),
     (.discard, none), (.discard, none), (.deliver, some 3), (.deliver, none)] := by decide

/-- 5.6: unit 6 in RESTART mode with threshold 3 reaches it on the third increment. -/
theorem test_tally_restart :
    let t : TallyUnit := { TallyUnit.reset with mode := .restart, threshold := 3, count := 2 }
    t.increment = ({ t with count := 0 }, some 3) := by decide

/-- A queue of entries numbered from `first`, each with a state and a send count. -/
def queueFrom (first : Word16) (l : List (EntryState × Nat)) : ReportQueue :=
  { entries := l.mapIdx fun i x =>
      { record := { stamp := 0, body := .skip 0 0 .up }, seq := first + BitVec.ofNat 16 i, sends := x.2, state := x.1 }
    next := first + BitVec.ofNat 16 l.length, lost := Loss.zero }

/-- What the tables of chapters 6 and 9 show of a queue. -/
def shown (q : ReportQueue) : List (Word16 × EntryState × Nat) := q.entries.map fun e => (e.seq, e.state, e.sends)

/-- 6.8: the numbers wrap: 190 entries from 65 400 leave the next number at 54; a full queue counts a loss in its class. -/
theorem test_queue_overflow :
    let q := queueFrom 65400 (List.replicate 192 (.pending, 0))
    (queueFrom 65400 (List.replicate 190 (.pending, 0))).next = 54
      ∧ (q.offer { stamp := 0, body := .tally 0 .threshold 1 }).lost = { fire := 0, capture := 0, other := 1 }
      ∧ (q.offer { stamp := 0, body := .tally 0 .threshold 1 }).next = 56 := by decide +kernel

/-- 6.8: the removal through 65 401 admits the GAP record as 56 in the same operation. -/
theorem test_queue_gap :
    let q := { queueFrom 65400 (List.replicate 192 (.pending, 0)) with lost := { fire := 2, capture := 1, other := 1 } }
    let r := q.removeThrough 0 65401
    r.entries.length = 191 ∧ r.oldest = 65402 ∧ r.next = 57 ∧ r.lost = Loss.zero
      ∧ (r.entries.getLast?.map fun e => (e.seq, e.record.body)) = some (56, .gap { fire := 2, capture := 1, other := 1 }) := by
  decide +kernel

/-- 6.9: after the revert and the second start of 10, ACK 12 removes 10 to 12. -/
theorem test_late_ack :
    let q := queueFrom 10
      [(.outstanding, 2), (.pending, 1), (.pending, 1), (.pending, 1), (.pending, 0), (.pending, 0)]
    q.acknowledges 12 = true ∧ q.acknowledges 14 = false
      ∧ shown (q.removeThrough 0 12) = [(13, .pending, 1), (14, .pending, 0), (15, .pending, 0)] := by decide +kernel

/-- 7.2, R127: the check value of the CRC, from the spec. -/
theorem test_crc_check : crc [0x31, 0x32, 0x33, 0x34, 0x35, 0x36, 0x37, 0x38, 0x39] = 0x29B1 := by decide +kernel

/-- 7.6: after a stray sync byte an ACK stands in the partial frame; at the gap expiry the held bytes are judged again and the
ACK is found, with one discard counted. -/
theorem test_stray_sync :
    let held := Frame.bytes { kind := 0x52, body := [0, 7] }
    let s := { State.reset with
      clock := 40000, rx := { state := .body, held := held, gap := some 40000, broken := false, discarded := 12 } }
    held.length = 7 ∧ (after .gapTimerExpiry s).rx = { Receiver.reset with discarded := 13 } := by decide +kernel

/-- 7.7: the arbiter starts REPORT 40 of three PENDING entries. -/
theorem test_arbiter_report :
    let s := { State.reset.setQueue (queueFrom 40 [(.pending, 0), (.pending, 0), (.pending, 0)]) with
      tx := { Transmitter.reset .powerOn with announce := none }, session := { Session.reset with state := .opened } }
    shown (after .arbiterChoice s).reportQueue = [(40, .outstanding, 1), (41, .pending, 0), (42, .pending, 0)]
      ∧ ((after .arbiterChoice s).tx.frame.map fun f => (f.source, f.bytes.take 6)) =
          some (.report, [0x9C, 15, 0xA2, 0, 40, 1]) := by decide +kernel

/-- 9.8: NAK 201 removes 200 and reverts the rest. -/
theorem test_nak :
    let s := { State.reset.setQueue (queueFrom 200
        [(.outstanding, 1), (.outstanding, 1), (.outstanding, 1), (.pending, 0), (.pending, 0)]) with
      session := { Session.reset with state := .opened, window := 3, retryLimit := 2, ackTimer := some 0 } }
    shown (after (.nakFrame 201) s).reportQueue =
        [(201, .pending, 1), (202, .pending, 1), (203, .pending, 0), (204, .pending, 0)]
      ∧ (after (.nakFrame 201) s).session.ackTimer = none := by decide +kernel

/-- 9.8: the third expiry, above a retry limit of 2, stalls the session. -/
theorem test_stall :
    let s := { State.reset with
      session := { Session.reset with state := .opened, retryLimit := 2, retries := 2, ackTimer := some 0 } }
    (after .ackTimerExpiry s).session.state = .stalled ∧ (after .ackTimerExpiry s).session.retries = 3 := by decide +kernel

/-- 10.2: an ANNOUNCE frame is 11 bytes in all; the one of power-on. -/
theorem test_announce :
    ((after .arbiterChoice State.reset).tx.frame.map fun f => (f.bytes.length, f.bytes.take 9)) =
      some (11, [0x9C, 7, 0xA3, 1, 0x46, 1, 0, 0, 0]) := by decide +kernel

/-- 10.5.1: IDENTIFY. -/
theorem test_identify :
    replyOf (exec .identify (executing .identify [] State.reset)) =
      some (.ok, [0x46, 1, 4, 8, 4, 240, 16, 8, 192, 4, 10, 0]) := by decide +kernel

/-- 11.1: ENABLE_AXIS at 0 forms the STATE record DISABLED to FREE, admitted as 0. -/
theorem test_enable :
    let t := after .enableAxis (executing .enableAxis [0, 0, 0, 0, 0] State.reset)
    replyOf (.next t) = some (.ok, []) ∧ (t.axis 0).state = .free
      ∧ t.reportQueue.entries.map (fun e => e.record.body) = [.state 0 .disabled .free .request]
      ∧ t.reportQueue.next = 1 := by decide +kernel

/-- 11.2: the index arrival UP at 1733 ends homing: the reply to HOME carries 1733 and 1733. -/
theorem test_homing :
    let s := ((State.reset.setAxis 0 { counting .seeking .quadIndex 1733 with
        homing := some { qualifier := .up, total := 1733, startTime := 0, timer := none, slot := 0 } }).setDecoder 0
        { decoderAt 0 with zDue := some .rising }).setHandler
      { Handler.reset.setSlot 0 (.deferred 1 0x16) with table := [{ kind := .home 0, tag := 1, code := 0x16, slot := 0 }] }
    replyOf (exec (.indexArrival 0) s) = some (.ok, [0, 0, 6, 197, 0, 0, 6, 197])
      ∧ ((after (.indexArrival 0) s).axis 0).position = 0 := by decide +kernel

/-! ## States that meet the hypotheses of the statements -/

theorem witness_StepRunsTheFrontCommand :
    { State.reset with pending := [.timebaseTick] }.pending = Instr.timebaseTick :: [] := rfl

theorem witness_CommandsLeaveTheQueueOfCommands : ∃ t, exec .timebaseTick State.reset = .next t := ⟨_, rfl⟩

/-- The reply of a RESET_DEVICE going out, at the moment its stop bit ends. -/
def resetGoingOut : State :=
  { State.reset with
    clock := 17400
    tx := { frame := some { source := .reply 0, bytes := List.replicate 10 0, started := 0 }, announce := none, tail := none }
    handler := { (Handler.reset.setSlot 0 (.completed { tag := 9, code := 0x61, status := .ok, results := [] })) with
      order := [0], mode := .resetPending } }

/-- R125: a reset takes RXD at the level it shows, so that a fall in the next sample is a leading edge when that level was high and
none when it was low. -/
theorem test_reset_sees_rxd :
    let falls (s : State) := ((after (.sample 0 { captures := 0, rxd := some false }) s).line.char).map fun c => c.edge
    falls (after (.frameCompletion 0) (hearing (some (true, 9)) none none resetGoingOut)) = some 1
      ∧ falls (after (.frameCompletion 0) (hearing (some (false, 9)) none none resetGoingOut)) = none
      ∧ falls (after (.powerOn { straps := 0, rxd := some true }) State.reset) = some 1 := by decide +kernel

theorem witness_ResetsLeaveTheResetValues :
    Running State.reset ∧ { State.reset with resetLow := true }.resetLow = true
      ∧ (Running resetGoingOut ∧ ∃ f, resetGoingOut.tx.frame = some f ∧ f.source = .reply 0
        ∧ f.ends resetGoingOut.straps = resetGoingOut.clock ∧ resetGoingOut.handler.mode = .resetPending
        ∧ ∃ r, resetGoingOut.handler.slots.get 0 = .completed r ∧ r.code = 0x61 ∧ r.status = .ok)
      ∧ (∀ pins, quiet ≠ .powerOn pins) ∧ ∀ pins, quiet ≠ .resetPinRelease pins :=
  ⟨rfl, rfl, ⟨rfl, _, rfl, rfl, by decide +kernel, rfl, _, rfl, rfl, rfl⟩, by simp [quiet], by simp [quiet]⟩

/-- The state of reset meets the condition of every clause but those of a frame in progress, of a pulse under way and of an
executing request, which other states meet. -/
theorem witness_CommandsWithNothingToTakeDoNothing :
    (let s := State.reset;
      Running s ∧ (s.decoder 3).patternDue = false ∧ (s.decoder 3).results = [] ∧ (s.decoder 3).zDue = none
        ∧ (s.axis 3).arrival = none ∧ (s.captureLine 3).edgeDue = none ∧ (s.captureLine 3).waiting = none
        ∧ (s.output 7).active = false ∧ (s.captureLine 3).holdoffEnd = none ∧ (s.axis 3).gateTimer = none
        ∧ (s.axis 3).homing = none ∧ (s.tallyUnit 7).mode ≠ .window ∧ s.rx.state = .hunt ∧ s.tx.frame = none
        ∧ s.handler.startNext.executing = none ∧ s.rx.broken = false)
    ∧ (Running resetGoingOut ∧ resetGoingOut.tx.frame.isSome = true)
    ∧ (let s := executing .time [] State.reset;
      Running s ∧ s.handler.startNext.executing = some (request .time []) ∧ requestOf (request .time []).code ≠ none
        ∧ requestOf (request .time []).code ≠ some .abort)
    ∧ (let s := hearing (some (false, 1)) (some { edge := 39999, samples := [] }) (some (.byte 7, 39998))
        { State.reset with
          clock := 20000, rx := { Receiver.reset with state := .length, gap := some 40000 } };
      Running s ∧ s.rx.gap = some 40000 ∧ s.line.char.any (fun c => c.edge < 40000) = true
        ∧ s.line.due.any (fun d => d.2 < 40000) = true ∧ s.line.level ≠ none ∧ s.line.due.map (fun d => d.1) = some (.byte 7)
        ∧ s.rx.state ≠ .hunt ∧ s.line.level = some (false, 1) ∧ s.clock < 1 + 20000)
    ∧ (let s := hearing (some (true, 1)) none none
        { State.reset with clock := 20000, rx := { Receiver.reset with broken := true } };
      Running s ∧ s.rx.broken = true ∧ s.line.level = some (true, 1) ∧ s.clock < 1 + 20000) := by decide +kernel

theorem witness_FilterFollowsItsTable : (1 ≤ 1 ∧ 0 < 1) ∧ (1 ≤ 63 ∧ 62 < 63) := by decide

theorem witness_SampleHandsOnAcceptedChanges :
    (Running State.reset ∧ State.reset.waiting = [])
    ∧ (let s := hearing (some (true, 0)) none none State.reset
      Running s ∧ s.waiting = [] ∧ s.line.level = some (true, 0)) := by decide +kernel

/-- A FREE axis 0 in a mode, with a new pattern to judge against a current one. -/
def judging (mode : InputMode) (current new : BitVec 3) : State :=
  showing new ((State.reset.setAxis 0 (counting .free mode 0)).setDecoder 0 { decoderAt current with patternDue := true })

theorem witness_QuadPatternsAreJudged :
    ∀ mode ∈ [InputMode.quad, .quadIndex], ∀ i k : Fin 4,
      let s := judging mode (quadCycle i) (quadCycle (i + k))
      Running s ∧ (s.axis 0).config.mode = mode ∧ (s.axis 0).state.counts = true ∧ (s.decoder 0).patternDue = true
        ∧ (s.decoder 0).awaiting = false ∧ (s.decoder 0).current = quadCycle i
        ∧ patternOf mode (s.sensorFilter 0) = some (quadCycle (i + k)) := by decide +kernel

theorem witness_HallPatternsAreJudged :
    (∀ i k : Fin 6,
      let s := judging .hall3 (hallCycle i) (hallCycle (i + k))
      Running s ∧ (s.axis 0).config.mode = .hall3 ∧ (s.axis 0).state.counts = true ∧ (s.decoder 0).patternDue = true
        ∧ (s.decoder 0).awaiting = false ∧ (s.decoder 0).current = hallCycle i
        ∧ patternOf .hall3 (s.sensorFilter 0) = some (hallCycle (i + k)))
    ∧ ∀ p ∈ [(0b000 : BitVec 3), 0b111], patternOf .hall3 ((judging .hall3 0b001 p).sensorFilter 0) = some p := by
  decide +kernel

/-- A HALL3 axis 0 in a state, with a new pattern due and the awaiting flag as given. -/
def following (st : AxisState) (awaiting : Bool) (p : BitVec 3) : State :=
  showing p ((State.reset.setAxis 0 (counting st .hall3 0)).setDecoder 0
    { Decoder.reset with patternDue := true, awaiting := awaiting })

theorem witness_PatternsThatCountNothing :
    (∀ p ∈ [(0b000 : BitVec 3), 0b111, 0b101], ∀ x ∈ [(AxisState.disabled, true), (.faulted, false), (.free, true)],
      let s := following x.1 x.2 p
      Running s ∧ (s.axis 0).state = x.1 ∧ (s.decoder 0).patternDue = true ∧ (s.decoder 0).awaiting = x.2
        ∧ patternOf (s.axis 0).config.mode (s.sensorFilter 0) = some p)
    ∧ (∀ p : BitVec 3, ∀ i : Fin 3, (((showing p State.reset).sensorFilter 0).get i).accepted = some (p.getLsbD i))
    ∧ ∀ i : Fin 3, ((State.reset.sensorFilter 0).get i).accepted = none := by decide +kernel

/-- Axis 0 with the next result of its decoder. -/
def handed (x : Axis) (r : DecoderResult) : State :=
  (State.reset.setAxis 0 x).setDecoder 0 { decoderAt 0 with results := [r] }

/-- Axis 0 SEEKING, with a step total and a travel limit. -/
def seeking (total limit : Nat) (q : Qualifier) : Axis :=
  { counting .seeking .quadIndex 0 with
    config := { AxisConfig.reset with mode := .quadIndex, travelLimit := some limit }
    homing := some { qualifier := q, total := total, startTime := 0, timer := some 0, slot := 0 } }

theorem witness_StepsMoveTheAxis :
    (∀ p ∈ [(2147483647 : Int), -2147483648], ∀ d ∈ [Direction.up, .down],
      let s := handed (counting .referenced .quad p) (.step d false)
      Running s ∧ (s.decoder 0).results = [.step d false] ∧ (s.axis 0).arrival = none ∧ (s.axis 0).state.counts = true
        ∧ (s.decoder 0).zDue = none ∧ (s.axis 0).homing = none ∧ (s.axis 0).config.modulus = 0
        ∧ InInt32 (s.axis 0).position ∧ InInt32 (s.axis 0).turns)
    ∧ (∀ p ∈ [(0 : Int), 3],
      let s := handed { counting .free .quad p with config := { AxisConfig.reset with modulus := 4 } } (.step .up false)
      0 ≤ (s.axis 0).position ∧ (s.axis 0).position < 4 ∧ (s.axis 0).config.modulus = 4 ∧ (s.axis 0).state.counts = true)
    ∧ (let s := handed (seeking 4 5 .up) (.step .up false)
      Running s ∧ (s.axis 0).state.counts = true ∧ (s.decoder 0).zDue = none
        ∧ ((s.axis 0).homing.map fun h => h.total + 1) = some 5 ∧ (s.axis 0).config.travelLimit = some 5)
    ∧ (let s := handed (counting .free .hall3 103) (.skip .up)
      Running s ∧ (s.decoder 0).results = [.skip .up] ∧ (s.axis 0).arrival = none) := by decide +kernel

/-- Axis 0 with an index edge to judge, UP. -/
def indexed (x : Axis) : State := (State.reset.setAxis 0 x).setDecoder 0 { decoderAt 0 with zDue := some .rising }

theorem witness_SamplesSettleFirst :
    Running State.reset ∧ State.reset.waiting = []
      ∧ (let s := hearing (some (true, 0)) none (some (.byte 7, 0)) (indexed (seeking 4 5 .up))
        Running s ∧ s.waiting = [.axis 0, .link]) := by decide +kernel

theorem witness_IndexEndsHoming :
    IndexDue 0 (indexed (seeking 4 5 .up)) ∧ ((indexed (seeking 4 5 .up)).axis 0).state = .seeking
      ∧ ((indexed (seeking 4 5 .up)).axis 0).homing.map (fun h => h.qualifier) = some .up
      ∧ ((indexed (seeking 4 5 .up)).decoder 0).direction = .up ∧ 4294967295 < 4294967296 := by decide +kernel

/-- A REFERENCED axis of modulus 1000 under the index check with tolerance 4. -/
def checked (p : Int) : Axis :=
  { counting .referenced .quadIndex p with
    config := { AxisConfig.reset with mode := .quadIndex, modulus := 1000, indexCheck := true } }

/-- Axis 0 with a change of Z to judge against a direction. -/
def zChanged (x : Axis) (e : Edge) (d : Direction) : State :=
  (State.reset.setAxis 0 x).setDecoder 0 { decoderAt 0 with zDue := some e, direction := d }

theorem witness_IndexIsReportedOrChecked :
    (IndexDue 0 (indexed (counting .free .quadIndex 0)) ∧ (counting .free .quadIndex 0).homing = none)
    ∧ (IndexDue 0 (indexed (counting .referenced .quadIndex 0))
      ∧ (counting .referenced .quadIndex 0).config.indexCheck = false)
    ∧ (IndexDue 0 (indexed (seeking 4 5 .down)) ∧ BelowTravelLimit (seeking 4 5 .down)
      ∧ (seeking 4 5 .down).homing.map (fun h => h.qualifier) = some .down)
    ∧ (∀ x ∈ [((996 : Int), (-4 : Int), (1 : Int)), (4, 4, 0), (995, -5, 1), (500, 500, 0), (501, -499, 1)],
      IndexDue 0 (indexed (checked x.1)) ∧ (checked x.1).homing = none ∧ (checked x.1).config.modulus ≠ 0
        ∧ x.1 - (checked x.1).config.homeOffset = x.2.1 + x.2.2 * (checked x.1).config.modulus
        ∧ -((checked x.1).config.modulus : Int) < 2 * x.2.1 ∧ 2 * x.2.1 ≤ (checked x.1).config.modulus
        ∧ InInt32 (checked x.1).turns)
    ∧ (∀ x ∈ [Axis.reset, counting .faulted .quadIndex 0, counting .free .quad 0], ZDue 0 .rising (indexed x)
      ∧ (x.state = .disabled ∨ x.state = .faulted ∨ x.config.mode ≠ .quadIndex))
    ∧ (∀ x ∈ [(Edge.rising, Direction.down), (.falling, .up)], ∀ y ∈ [counting .free .quadIndex 0, seeking 5 5 .up],
      ZDue 0 x.1 (zChanged y x.1 x.2) ∧ ((zChanged y x.1 x.2).decoder 0).direction = x.2)
    ∧ (IndexDue 0 (indexed (seeking 5 5 .down)) ∧ ZDue 0 .rising (indexed (seeking 5 5 .down))
      ∧ (seeking 5 5 .down).homing.map (fun h => (h.qualifier, h.total)) = some (.down, 5)
      ∧ (seeking 5 5 .down).config.travelLimit = some 5 ∧ (seeking 5 5 .down).state = .seeking
      ∧ (seeking 5 5 .down).config.mode = .quadIndex) := by
  refine ⟨by decide +kernel, by decide +kernel, ⟨by decide +kernel, ?_, rfl⟩, by decide +kernel, by decide +kernel,
    by decide +kernel, by decide +kernel⟩
  intro h hh l hl
  cases hh
  cases hl
  decide

theorem witness_FaultsFreezeTheAxis :
    (State.reset.axis 0).homing = none ∧ ((indexed (seeking 4 5 .up)).axis 0).homing.isSome = true := by decide +kernel

theorem witness_AxisTimersExpire :
    let s := indexed (seeking 4 5 .up)
    Running s ∧ (s.axis 0).homing.bind (fun h => h.timer) = some 0 ∧ 0 ≤ s.clock ∧ (s.axis 0).gateTimer = some 200000
      ∧ ¬ 200000 ≤ s.clock := by decide +kernel

/-- An axis that holds an arrival. -/
def withArrival (x : Axis) : Axis := { x with arrival := some { position := 7, direction := .up, inferred := false } }

/-- The arguments of CONFIGURE_AXIS: axis 0 and a configuration. -/
def configuring (c : AxisConfig) : List Byte := 0 :: c.bytes

theorem witness_ConfigureAxisIsJudged :
    (let s := executing .configureAxis (configuring AxisConfig.reset) (State.reset.setAxis 0 (counting .free .quad 0));
      ExecutingOn .configureAxis 0 (request .configureAxis (configuring AxisConfig.reset)) s ∧ (s.axis 0).state ≠ .disabled)
    ∧ (∀ c ∈ [{ AxisConfig.reset with depth := 64 }, { AxisConfig.reset with modulus := 3 }, { AxisConfig.reset with gate := 0 },
        { AxisConfig.reset with modulus := 4, homeOffset := 4 }],
      ExecutingOn .configureAxis 0 (request .configureAxis (configuring c)) (executing .configureAxis (configuring c) State.reset)
        ∧ axisConfigOf (configuring c) = none)
    ∧ (∀ c ∈ [AxisConfig.reset, { AxisConfig.reset with depth := 63, modulus := 16777216, homeOffset := 16777215, gate := 1000 }],
      ExecutingOn .configureAxis 0 (request .configureAxis (configuring c)) (executing .configureAxis (configuring c) State.reset)
        ∧ (State.reset.axis 0).state = .disabled ∧ axisConfigOf (configuring c) = some c ∧ c.bytes.length = 23)
    ∧ (State.reset.axis 0).arrival = none ∧ (counting .free .quad 0).arrival = none
    ∧ (let s := executing .configureAxis (configuring AxisConfig.reset) (State.reset.setAxis 0 (withArrival Axis.reset));
      ExecutingOn .configureAxis 0 (request .configureAxis (configuring AxisConfig.reset)) s
        ∧ (s.axis 0).arrival.isSome = true) := by decide +kernel

theorem witness_AxisRequestsAreTaken :
    (ExecutingOn .enableAxis 0 (request .enableAxis [0, 0x7F, 0xFF, 0xFF, 0xFF])
        (executing .enableAxis [0, 0x7F, 0xFF, 0xFF, 0xFF] State.reset)
      ∧ positionInRange 0 (argInt [0, 0x7F, 0xFF, 0xFF, 0xFF] 1) = true ∧ (State.reset.axis 0).state = .disabled)
    ∧ (ExecutingOn .enableAxis 0 (request .enableAxis [0, 0, 0, 0, 0])
        (executing .enableAxis [0, 0, 0, 0, 0] (State.reset.setAxis 0 (counting .free .quad 0)))
      ∧ (counting .free .quad 0).state ≠ .disabled)
    ∧ (let x := { Axis.reset with config := { AxisConfig.reset with modulus := 4 } }
      ExecutingOn .enableAxis 0 (request .enableAxis [0, 0, 0, 0, 4])
          (executing .enableAxis [0, 0, 0, 0, 4] (State.reset.setAxis 0 x))
        ∧ x.state = .disabled ∧ positionInRange x.config.modulus (argInt [0, 0, 0, 0, 4] 1) = false)
    ∧ (ExecutingOn .setPosition 3 (request .setPosition [3, 0, 0, 0, 7, 2])
        (executing .setPosition [3, 0, 0, 0, 7, 2] State.reset)
      ∧ onOffOf (arg8 [3, 0, 0, 0, 7, 2] 5) = none)
    ∧ (ExecutingOn .disableAxis 0 (request .disableAxis [0]) (executing .disableAxis [0] (indexed (seeking 4 5 .up)))
      ∧ ((indexed (seeking 4 5 .up)).axis 0).state ≠ .disabled)
    ∧ ExecutingOn .disableAxis 0 (request .disableAxis [0]) (executing .disableAxis [0] State.reset)
    ∧ ExecutingOn .clearFault 0 (request .clearFault [0])
        (executing .clearFault [0] (State.reset.setAxis 0 (counting .faulted .quad 0)))
    ∧ (ExecutingOn .setPosition 0 (request .setPosition [0, 0, 0, 0, 7, 1])
        (executing .setPosition [0, 0, 0, 0, 7, 1] (State.reset.setAxis 0 (counting .free .quad 0)))
      ∧ onOffOf (arg8 [0, 0, 0, 0, 7, 1] 5) = some true) := by decide +kernel

/-- ENABLE_AXIS and SET_POSITION executing while the axis holds an arrival, as the clauses on waiting need it. -/
theorem witness_AxisRequestsAreTaken_waiting :
    ExecutingOn .enableAxis 0 (request .enableAxis [0, 0, 0, 0, 7])
        (executing .enableAxis [0, 0, 0, 0, 7] (State.reset.setAxis 0 (withArrival Axis.reset)))
      ∧ ExecutingOn .setPosition 0 (request .setPosition [0, 0, 0, 0, 7, 1])
        (executing .setPosition [0, 0, 0, 0, 7, 1] (State.reset.setAxis 0 (withArrival Axis.reset)))
      ∧ (withArrival Axis.reset).arrival.isSome = true ∧ Axis.reset.arrival = none
      ∧ (counting .free .quad 0).arrival = none := by decide +kernel

theorem witness_HomeIsJudged :
    (ExecutingOn .home 3 (request .home [3, 3]) (executing .home [3, 3] State.reset) ∧ 2 < (arg8 [3, 3] 1).toNat)
    ∧ ∀ q ∈ [(0 : Byte), 2],
      ExecutingOn .home 0 (request .home [0, q])
        (executing .home [0, q] (State.reset.setAxis 0 (counting .free .quadIndex 0))) ∧ (qualifierOf q).isSome := by
  decide +kernel

theorem witness_QueryAxisReadsTheAxis :
    ExecutingOn .queryAxis 3 (request .queryAxis [3]) (executing .queryAxis [3] State.reset)
      ∧ (let s := executing .queryAxis [0] (State.reset.setDecoder 0 (decoderAt 0))
        ExecutingOn .queryAxis 0 (request .queryAxis [0]) s ∧ (s.decoder 0).awaiting = false ∧ (s.decoder 0).results = [])
      ∧ (let s := executing .queryAxis [0] (handed (counting .free .quad 0) (.step .up false))
        ExecutingOn .queryAxis 0 (request .queryAxis [0]) s ∧ (s.decoder 0).results ≠ []) := by decide +kernel

theorem witness_MarksEnterInOrder : exampleMarks.Pairwise fun x y => x.position ≤ y.position := by decide +kernel

theorem witness_LayoutsAreReadBackAsWritten :
    AxisConfig.reset.Fits
      ∧ { FilterEntry.reset with flagsMask := 0b111, flagsValue := 0b101 }.flagsValue &&& ~~~(0b111 : BitVec 3) = 0
      ∧ ∀ m ∈ exampleMarks, m.Fits 2000 ∧ { m with count := .counted 1, pitch := some 500 }.Fits 2000 := by
  refine ⟨by simp [AxisConfig.Fits, AxisConfig.reset, PositionFits, InInt32], by decide, ?_⟩
  intro m hm
  simp only [exampleMarks, List.mem_cons, List.not_mem_nil, or_false] at hm
  rcases hm with rfl | rfl | rfl | rfl | rfl <;> simp [Mark.Fits, PositionFits, InInt32]

/-- The arguments of ADD_MARKS: axis 0, ARMED, and marks. -/
def adding (ms : List Mark) : List Byte := 0 :: 1 :: byte8 ms.length :: ms.flatMap Mark.bytes

theorem witness_AddMarksIsJudged :
    (∀ l ∈ [[(4 : Byte), 0, 0], [0, 0, 0]], Executing .addMarks (request .addMarks l) (executing .addMarks l State.reset))
    ∧ Executing .addMarks (request .addMarks (adding exampleMarks)) (executing .addMarks (adding exampleMarks) State.reset)
    ∧ (judgeMarks 0 true (readMarks 5 ((adding exampleMarks).drop 3))).isSome = true
    ∧ (judgeMarks 1000 true (readMarks 5 ((adding exampleMarks).drop 3))).isSome = false
    ∧ ((readMark ((adding exampleMarks).drop 3)).1.judge 0 true).isSome = true
    ∧ (∃ w : RawMark, w.position = -2147483648 ∧ w.pitch = some 2147483647 ∧ w.count = some 65535) :=
  ⟨by decide +kernel, by decide +kernel, by decide +kernel, by decide +kernel, by decide +kernel,
   ⟨{ tag := 0, position := -2147483648, qualifier := 0, count := some 65535, pitch := some 2147483647, pulse := none,
      capture := none, release := none, report := 0 }, rfl, rfl, rfl⟩⟩

theorem witness_MarkRequestsAreTaken :
    (∀ l ∈ [[(4 : Byte), 0, 11, 0xFF, 0xFF, 0], [0, 0, 11, 0xFF, 0xFF, 3]],
      Executing .removeMarks (request .removeMarks l) (executing .removeMarks l State.reset)
        ∧ (3 < (arg8 l 0).toNat ∨ 2 < (arg8 l 5).toNat))
    ∧ Executing .releaseMarks (request .releaseMarks [4, 0, 11, 0, 0]) (executing .releaseMarks [4, 0, 11, 0, 0] State.reset)
    ∧ Executing .listMarks (request .listMarks [4, 0, 1]) (executing .listMarks [4, 0, 1] State.reset)
    ∧
    (∀ sel ∈ [(0 : Byte), 2], Executing .removeMarks (request .removeMarks [0, 0, 11, 0xFF, 0xFF, sel])
      (executing .removeMarks [0, 0, 11, 0xFF, 0xFF, sel] (State.reset.setMarkList 0 exampleMarks)) ∧ sel.toNat ≤ 2)
    ∧ Executing .releaseMarks (request .releaseMarks [0, 0, 11, 0xFF, 0xFF])
      (executing .releaseMarks [0, 0, 11, 0xFF, 0xFF] (State.reset.setMarkList 0 exampleMarks))
    ∧ (∀ x ∈ [[(0 : Byte), 239, 8], [0, 240, 1]],
      Executing .listMarks (request .listMarks x) (executing .listMarks x (State.reset.setMarkList 0 exampleMarks))) := by
  decide +kernel

/-- A mark at 1000 that releases the HELD mark behind it there, and a mark elsewhere. -/
def releasing : List Mark :=
  let one : Mark :=
    { tag := 13, position := 1000, qualifier := .up, count := .counted 1, pitch := none, armed := true, pulse := none,
      capture := none, release := some (0, 11), report := true }
  [one, { one with tag := 11, qualifier := .either, armed := false, release := none },
   { one with position := 1500, armed := false, release := none }]

theorem witness_ArrivalsFireTheirCandidates :
    (∀ m ∈ exampleMarks, m.position = 1000 → m.armed = true →
      (m.qualifier = .up ∧ Direction.down = .down) ∨ m.tag = 12)
    ∧ ((arriving 999 .up exampleMarks).axis 0).arrival.isSome = true ∧ (∀ m ∈ exampleMarks, m.position ≠ 999)
    ∧ (∀ c ∈ [(Firings.counted 1, (none : Option Int)), (.counted 2, some 1), (.endless, some (-1))],
      ∃ m : Mark, m.position = 7 ∧ m.count = c.1 ∧ m.pitch = c.2 ∧ m.armed = true ∧ m.qualifier = .either ∧ m.report = true
        ∧ m.pulse = none ∧ m.capture = none ∧ m.release = none ∧ ∀ x ∈ exampleMarks, x.position ≠ 7)
    ∧ (let l := exampleMarks.map fun m => { m with report := true, pulse := none, capture := none, release := none };
      let s := arriving 1000 .up l
      let arr : Arrival := { position := 1000, direction := .up, inferred := false }
      Running s ∧ (s.axis 0).arrival = some arr ∧ (l.filter fun m => m.candidateOf arr).map (fun m => m.tag) = [10, 13]
        ∧ l.Pairwise (fun x y => x.position ≤ y.position)
        ∧ ∀ m ∈ l.filter (fun m => m.candidateOf arr), m.onlyReports
          ∧ ∀ m' ∈ m.afterFiring (s.axis 0).config.modulus, m'.position ≠ arr.position)
    ∧ (let s := arriving 1000 .up releasing
      let arr : Arrival := { position := 1000, direction := .up, inferred := false }
      Running s ∧ (s.axis 0).arrival = some arr
        ∧ (∃ m h x, s.markList 0 = [] ++ m :: h :: [x] ∧ x.position ≠ 1000 ∧ m.candidateOf arr = true ∧ m.count = .counted 1
          ∧ m.report = true ∧ m.pulse = none ∧ m.capture = none ∧ m.release = some (0, h.tag) ∧ h.position = 1000
          ∧ h.armed = false ∧ h.qualifier = .either))
    ∧ (let arr : Arrival := { position := 1000, direction := .up, inferred := false }
      exampleMarks.Pairwise (fun x y => x.position ≤ y.position)
        ∧ ((List.range exampleMarks.length).filterMap fun i => (exampleMarks[i]?.filter fun m => m.candidateOf arr).map fun m =>
            ((exampleMarks.take i).countP fun x => x.position == arr.position && !x.candidateOf arr, m.tag)) =
          [(0, 10), (2, 13)]) := by
  refine ⟨by decide +kernel, by decide +kernel, by decide +kernel, fun c _ => ?_, by decide +kernel,
    ⟨rfl, rfl, _, _, _, rfl, by decide +kernel⟩, by decide +kernel⟩
  exact ⟨{ tag := 1, position := 7, qualifier := .either, count := c.1, pitch := c.2, armed := true, pulse := none,
           capture := none, release := none, report := true }, rfl, rfl, rfl, rfl, rfl, rfl, rfl, rfl, rfl, by decide +kernel⟩

theorem witness_FiringMarksMakeTheirClaims :
    (∃ m : Mark, m.pulse = some 7 ∧ m.capture = some 0b1111 ∧ m.release = some (3, 65535))
    ∧ (∃ m : Mark, m.pulse = none ∧ m.capture = none ∧ m.release = none)
    ∧ ∃ l1 m l2, (State.reset.setMarkList 0 exampleMarks).markList 0 = l1 ++ m :: l2 :=
  ⟨⟨{ tag := 1, position := 7, qualifier := .either, count := .counted 1, pitch := none, armed := true, pulse := some 7,
      capture := some 0b1111, release := some (3, 65535), report := true }, rfl, rfl, rfl⟩,
   ⟨{ tag := 1, position := 7, qualifier := .either, count := .counted 1, pitch := none, armed := true, pulse := none,
      capture := none, release := none, report := true }, rfl, rfl, rfl⟩, [], _, _, rfl⟩

theorem witness_PulseClaimsAreJudged :
    (∀ x ∈ [(OutputMode.pulse, false, Policy.retrigger), (.pulse, true, .retrigger), (.pulse, true, .refuse),
        (.toggle, false, .refuse)],
      let s := State.reset.setOutput 7 { OutputLine.reset with mode := x.1, active := x.2.1, policy := x.2.2 }
      Running s ∧ (s.output 7).mode = x.1 ∧ (s.output 7).active = x.2.1 ∧ (s.output 7).policy = x.2.2)
    ∧ ∀ n ∈ [(7 : Byte), 8], Executing .pulseOutput (request .pulseOutput [n]) (executing .pulseOutput [n] State.reset) := by
  decide +kernel

theorem witness_OutputLinesExpireAndConfigure :
    (∀ stop ∈ [0, 1],
      let s := State.reset.setOutput 0 { OutputLine.reset with active := true, pulseEnd := some stop }
      Running s ∧ (s.output 0).mode = .pulse ∧ (s.output 0).active = true ∧ (s.output 0).pulseEnd = some stop)
    ∧ (∀ l ∈ [[(8 : Byte), 0, 0, 1, 0, 0], [0, 2, 0, 1, 0, 0], [0, 0, 0, 0, 0, 0], [0, 0, 0, 1, 2, 0], [0, 0, 0, 1, 0, 2],
        [7, 1, 0xFF, 0xFF, 1, 1]],
      Executing .configureOutput (request .configureOutput l) (executing .configureOutput l State.reset))
    ∧ (outputModeOf (arg8 [7, 1, 0xFF, 0xFF, 1, 1] 1) = some .toggle ∧ (arg16 [7, 1, 0xFF, 0xFF, 1, 1] 2).toNat ≠ 0
      ∧ onOffOf (arg8 [7, 1, 0xFF, 0xFF, 1, 1] 4) = some true ∧ policyOf (arg8 [7, 1, 0xFF, 0xFF, 1, 1] 5) = some .refuse) := by
  decide +kernel

/-- Capture line 0 with an edge to take. -/
def edged (select : EdgeSelect) (e : Edge) (stop : Option Nat) (release : Option (AxisNo × Word16)) : State :=
  State.reset.setCaptureLine 0
    { CaptureLine.reset with select := select, edgeDue := some e, holdoffEnd := stop, axes := 0b1111, release := release }

theorem witness_CaptureEdgesAreJudged :
    ∀ x ∈ [(EdgeSelect.none, Edge.rising, (none : Option Nat), (none : Option (AxisNo × Word16))), (.rising, .falling, none, none),
        (.falling, .rising, none, none), (.both, .rising, some 0, none), (.both, .falling, none, none), (.rising, .rising, none, some (3, 7)),
        (.falling, .falling, none, none)],
      let s := edged x.1 x.2.1 x.2.2.1 x.2.2.2
      Running s ∧ (s.captureLine 0).edgeDue = some x.2.1 ∧ (s.captureLine 0).waiting = none ∧ (s.captureLine 0).select = x.1
        ∧ (s.captureLine 0).holdoffEnd = x.2.2.1 ∧ (s.captureLine 0).release = x.2.2.2 := by decide +kernel

theorem witness_CaptureLinesReleaseExpireAndConfigure :
    (let s := State.reset.setCaptureLine 0
        { CaptureLine.reset with waiting := some { edge := .rising, snapshot := [], target := (3, 7) }, holdoffEnd := some 0 };
      Running s ∧ (s.captureLine 0).waiting.map (fun w => w.target) = some (3, 7) ∧ (s.captureLine 0).holdoffEnd = some 0)
    ∧ (∀ l ∈ [[(4 : Byte), 0, 0, 0, 0, 0, 0], [0, 4, 0, 0, 0, 0, 0], [0, 0, 64, 0, 0, 0, 0], [0, 0, 0, 16, 0, 0, 0],
        [0, 0, 0, 0, 0, 0, 1, 4, 0, 7], [3, 3, 63, 15, 0xFF, 0xFF, 1, 3, 0, 7]],
      Executing .configureCapture (request .configureCapture l) (executing .configureCapture l State.reset))
    ∧ (arg8 [0, 0, 0, 0, 0, 0, 1, 4] 6 ≠ 0 ∧ 3 < (arg8 [0, 0, 0, 0, 0, 0, 1, 4] 7).toNat)
    ∧ (arg8 [0, 0, 0, 0, 0, 0, 1, 3] 6 ≠ 0 ∧ (arg8 [0, 0, 0, 0, 0, 0, 1, 3] 7).toNat = (3 : AxisNo).val)
    ∧ edgeSelectOf 3 = some .both ∧ (15 : Byte).toNat = (0b1111 : AxisSet).toNat
    ∧ releaseTargetOf [3, 3, 63, 15, 0xFF, 0xFF, 1, 3, 0, 7] = some (some (3, 7)) := by decide +kernel

theorem witness_TheTimebaseCountsMicroseconds :
    (Running State.reset ∧ State.reset.waiting = [] ∧ State.reset.line.level = none)
      ∧ (∃ t, exec quiet State.reset = .next t) ∧ quiet ≠ .timebaseTick
      ∧ (∀ x, quiet ≠ .powerOn x) ∧ quiet ≠ .resetPin ∧ (∀ x, quiet ≠ .resetPinRelease x)
      ∧ ∀ x, quiet ≠ .frameCompletion x :=
  ⟨by decide +kernel, ⟨_, rfl⟩, by simp [quiet], by simp [quiet], by simp [quiet], by simp [quiet], by simp [quiet]⟩

theorem witness_RecordsAreFormed :
    (RecordBody.fault 2 .quadJump 0).view.isSome = true
      ∧ (judgeRecord exampleTable ⟨4, some 2, 1, 0⟩).2 = none ∧ (judgeRecord exampleTable ⟨0, some 0, 300, 0⟩).2 = some 2 := by
  decide +kernel

theorem witness_TheFirstMatchJudges :
    (∀ i, (exampleTable.get i).matchesView ⟨4, some 2, 1, 0⟩ = false)
      ∧ (exampleTable.get 2).matchesView ⟨2, some 3, 0, 0⟩ = true
      ∧ ∀ j, j < (2 : Fin 16) → (exampleTable.get j).matchesView ⟨2, some 3, 0, 0⟩ = false := by decide +kernel

theorem witness_FilterRequestsAreTaken :
    (∀ l ∈ [[(16 : Byte), 0, 0, 0, 0, 0, 0, 0, 0, 0, 0, 0], [0, 2, 0, 0, 0, 0, 0, 0, 0, 0, 0, 0],
        [15, 1, 63, 31, 0, 0, 0, 0, 7, 5, 1, 1, 7]],
      Executing .setFilter (request .setFilter l) (executing .setFilter l State.reset))
    ∧ filterEntryOf [0, 2, 0, 0, 0, 0, 0, 0, 0, 0, 0, 0] = none
    ∧ (filterEntryOf [15, 1, 63, 31, 0, 0, 0, 0, 7, 5, 1, 1, 7]).isSome = true
    ∧ ∀ n ∈ [(15 : Byte), 16], Executing .readFilter (request .readFilter [n]) (executing .readFilter [n] State.reset) := by
  decide +kernel

theorem witness_TallyUnitsCount :
    ∀ x ∈ [(TallyMode.off, 0), (.window, 4294967295), (.once, 0), (.once, 4294967295), (.restart, 2)],
      ∃ t : TallyUnit, t.mode = x.1 ∧ t.count = x.2 := fun x _ => ⟨{ TallyUnit.reset with mode := x.1, count := x.2 }, rfl, rfl⟩

theorem witness_TallyWindowsAndRequests :
    (∀ stop ∈ [0, 1],
      let s := State.reset.setTallyUnit 7 { TallyUnit.reset with mode := .window, timer := some stop }
      Running s ∧ (s.tallyUnit 7).mode = .window ∧ (s.tallyUnit 7).timer = some stop)
    ∧ (∀ l ∈ [[(7 : Byte), 1, 0, 0, 0, 0, 0, 0], [7, 3, 0, 0, 0, 1, 0, 0], [7, 2, 0xFF, 0xFF, 0xFF, 0xFF, 0, 0]],
      Executing .configureTally (request .configureTally l) (executing .configureTally l State.reset)
        ∧ (tallyModeOf (arg8 l 1)).isSome = true)
    ∧ (∀ l ∈ [[(8 : Byte), 0, 0, 0, 0, 0, 0, 0], [0, 4, 0, 0, 0, 0, 0, 0]],
      Executing .configureTally (request .configureTally l) (executing .configureTally l State.reset)
        ∧ (7 < (arg8 l 0).toNat ∨ 3 < (arg8 l 1).toNat))
    ∧ (∀ l ∈ [[(8 : Byte), 0], [0, 2]],
      Executing .readTally (request .readTally l) (executing .readTally l State.reset)
        ∧ (7 < (arg8 l 0).toNat ∨ 1 < (arg8 l 1).toNat))
    ∧ ∀ clear : Bool, Executing .readTally (request .readTally [7, byte8 clear.toNat])
        (executing .readTally [7, byte8 clear.toNat] State.reset) := by decide +kernel

theorem witness_OffersAreAdmittedOrCounted :
    (queueFrom 0 (List.replicate 191 (.pending, 0))).entries.length < 192
      ∧ 192 ≤ (queueFrom 0 (List.replicate 192 (.pending, 0))).entries.length
      ∧ ∀ l, RecordBody.skip 0 0 .up ≠ .gap l := ⟨by decide +kernel, by decide +kernel, by simp⟩

theorem witness_QueueOperationsLeaveTheRest :
    let q := queueFrom 65535 [(.outstanding, 1), (.pending, 0)]
    let full := { queueFrom 65535 (List.replicate 192 (.pending, 1)) with lost := { fire := 1, capture := 0, other := 0 } }
    (q.entries.length ≤ 192 ∧ q.lost = Loss.zero ∧ q.entries[1]?.isSome = true ∧ q.entries ≠ [])
      ∧ (full.entries.length ≤ 192 ∧ full.lost ≠ Loss.zero ∧ full.entries[191]?.isSome = true)
      ∧ (∀ i, i < q.entries.length → (q.entries.map QueueEntry.seq)[i]? = some (q.oldest + BitVec.ofNat 16 i))
      ∧ q.next = q.oldest + BitVec.ofNat 16 q.entries.length
      ∧ (∀ i, i < full.entries.length → (full.entries.map QueueEntry.seq)[i]? = some (full.oldest + BitVec.ofNat 16 i))
      ∧ full.next = full.oldest + BitVec.ofNat 16 full.entries.length
      ∧ Numbered (queueFrom 7 []) ∧ (queueFrom 7 []).entries = [] := by
  refine ⟨by decide +kernel, by decide +kernel, by decide +kernel, by decide +kernel, by decide +kernel, by decide +kernel,
    ⟨by simp [queueFrom], by decide +kernel⟩, rfl⟩

theorem witness_RecordsHeldStay :
    (∃ t, exec quiet State.reset = .next t) ∧ (∀ x, quiet ≠ .powerOn x)
      ∧ (∀ x, quiet ≠ .resetPinRelease x) ∧ (∀ x, quiet ≠ .frameCompletion x)
      ∧ (∀ x, quiet ≠ .ackFrame x) ∧ (∀ x, quiet ≠ .nakFrame x)
      ∧ (∀ x, quiet ≠ .rxdByte x) ∧ (∀ x, quiet ≠ .frameDiscard x)
      ∧ quiet ≠ .resetPin ∧ quiet ≠ .gapTimerExpiry ∧ quiet ≠ .openSession
      ∧ State.reset.line.char = none ∧ State.reset.line.due = none :=
  ⟨⟨_, rfl⟩, by simp [quiet], by simp [quiet], by simp [quiet], by simp [quiet], by simp [quiet], by simp [quiet],
   by simp [quiet], by simp [quiet], by simp [quiet], by simp [quiet], rfl, rfl⟩

theorem witness_TheFrameCheckIsTheCrc : ({ kind := 0x51, body := List.replicate 199 0 } : Frame).body.length ≤ 199 := by
  decide +kernel

/-- 7.1: at 10 periods a bit, the byte 0x9C after a high level; a low pulse shorter than half a bit; and the byte again with its
stop bit low, after which no start bit is taken. -/
theorem test_characters_on_rxd :
    let waits : LineReceiver := { level := some (true, 0), char := none, due := none }
    let sees (l : List Bool) := l.zipIdx.foldl (fun (x : LineReceiver) v => x.follow false 10 (5 + v.2) v.1) waits
    let byte := (List.range 90).map (characterLevel 10 0x9C)
    (sees (byte ++ List.replicate 10 true)).due = some (.byte 0x9C, 5)
      ∧ sees (List.replicate 4 false ++ [true, true]) = { level := some (true, 9), char := none, due := none }
      ∧ sees (byte ++ List.replicate 20 false) = { level := some (false, 95), char := none, due := some (.error, 5) } := by
  decide +kernel

theorem witness_BytesMakeTheirFrame :
    (∃ x : LineReceiver, x.level = some (true, 0) ∧ x.char = none) ∧ (2 ≤ 2 ∧ 2 ≤ bitPeriods 0)
      ∧ (∀ n ∈ [0, 8, 9], ∃ x : LineReceiver, ∃ samples, x.char = some { edge := 5, samples := samples } ∧ samples.length = n)
      ∧ (FrameMayCome State.reset ∧ State.reset.line.due = none ∧ damagedBytes [201] = true) ∧ (List.replicate 197 (0 : Byte)).length ≤ 197
      ∧ (Instr.wrongKindFrame 0x99 (List.replicate 199 0)).wellFormed = true :=
  ⟨⟨{ level := some (true, 0), char := none, due := none }, rfl, rfl⟩, by decide,
   fun n _ => ⟨{ level := none, char := some { edge := 5, samples := List.replicate n false }, due := none }, _, rfl, by simp⟩,
   by decide +kernel⟩

/-- The receiver in a state with held bytes and its gap timer at 0. -/
def receiving (st : ReceiverState) (held : List Byte) : State :=
  { State.reset with rx := { Receiver.reset with state := st, held := held, gap := some 0 } }

theorem witness_BytesAreHeldOrDiscarded :
    (∀ x ∈ [(ReceiverState.hunt, ([] : List Byte)), (.length, []), (.body, [3]), (.body, [3, 0x52, 0]), (.check, [3, 0x52, 0, 7]),
        (.check, [3, 0x52, 0, 7, 0])],
      ∀ s ∈ [receiving x.1 x.2, hearing (some (true, 0)) none (some (.byte 7, 0)) (receiving x.1 x.2)],
      Running s ∧ s.rx.broken = false ∧ (s.line.level = none ∨ s.line.due = some (.byte 7, 0)) ∧ s.rx.state = x.1
        ∧ s.rx.held = x.2 ∧ s.rx.gap = some 0)
    ∧ (∀ s ∈ [receiving .hunt [], receiving .length [], hearing (some (false, 0)) none (some (.error, 0)) (receiving .length [])],
      Running s ∧ s.rx.broken = false ∧ (s.line.level = none ∨ s.line.due = some (.error, 0)))
    ∧ (1 ≤ (1 : Byte).toNat ∧ (200 : Byte).toNat ≤ 200 ∧ (0 : Byte).toNat = 0 ∧ 200 < (201 : Byte).toNat)
    ∧ FrameMayCome (receiving .hunt [])
    ∧ (∀ stop ∈ [0, 1],
      let s := hearing (some (true, 0)) (some { edge := 1, samples := [] }) none
        { receiving .length [] with rx := { (receiving .length []).rx with gap := some stop } }
      Running s ∧ s.rx.state ≠ .hunt ∧ s.rx.gap = some stop ∧ (∀ c ∈ s.line.char, stop ≤ c.edge) ∧ (∀ d ∈ s.line.due, stop ≤ d.2))
    ∧ damagedBytes [201] = true ∧ damagedBytes [0] = true ∧ wrongKind { kind := 0x51, body := [0] } = true
    ∧ wrongKind { kind := 0x99, body := [] } = true := by
  decide +kernel

theorem witness_BreaksClearTheLink :
    (Running State.reset ∧ State.reset.rx.broken = false ∧ RxdHeld false State.reset)
      ∧ (let s := hearing (some (false, 1)) none none
          { State.reset.setAxis 0 (seeking 4 5 .up) with
            clock := 20001, session := { Session.reset with state := .opened }
            reports := { Reports.reset with queue := queueFrom 5 [(.outstanding, 1), (.pending, 0)] }
            tx := { frame := some { source := .report, bytes := List.replicate 40 0, started := 1 }, announce := none, tail := none } }
        Running s ∧ s.rx.broken = false ∧ RxdHeld false s ∧ (s.axis 0).state = .seeking ∧ s.session.state ≠ .closed
          ∧ s.tx.frame.isSome = true)
      ∧ (let s := hearing (some (true, 1)) none none
          { State.reset with clock := 20001, rx := { Receiver.reset with broken := true } }
        Running s ∧ s.rx.broken = true ∧ RxdHeld true s) := by
  refine ⟨⟨rfl, rfl, by simp [State.reset, LineReceiver.reset]⟩, ⟨rfl, rfl, ?_, by decide +kernel, by decide +kernel, rfl⟩, rfl, rfl, ?_⟩
  all_goals
    intro l since h
    cases h
    decide +kernel

theorem witness_TheArbiterChoosesInOrder :
    (Running State.reset ∧ State.reset.tx.frame = none ∧ State.reset.rx.broken = false
      ∧ State.reset.tx.announce = some .powerOn)
    ∧ (let s := { resetGoingOut with tx := { frame := none, announce := none, tail := none } }
      s.tx.announce = none ∧ s.handler.order = [0] ∧ ∃ r, s.handler.slots.get 0 = .completed r)
    ∧ (let s := { State.reset with
        tx := { frame := none, announce := none, tail := none }, session := { Session.reset with state := .opened }
        reports := { Reports.reset with queue := queueFrom 5 [(.outstanding, 1), (.outstanding, 1), (.outstanding, 1), (.pending, 255)] } }
      s.session.state = .opened ∧ s.reportQueue.outstanding < s.session.window
        ∧ s.reportQueue.entries.map (fun e => e.state) = [.outstanding, .outstanding, .outstanding, .pending])
    ∧ (State.reset.session.state ≠ .opened ∧ State.reset.handler.order = []) := by
  refine ⟨⟨rfl, rfl, rfl, rfl⟩, ⟨rfl, rfl, _, rfl⟩, by decide +kernel, by decide +kernel⟩

/-- The request handler with its slots given and its queue of a length. -/
def loaded (slots : Vector Slot 10) (n : Nat) (mode : HandlerMode) : State :=
  State.reset.setHandler
    { Handler.reset with
      slots := slots, mode := mode, queue := List.replicate n { tag := 0, code := 0, args := [], slot := 0 } }

theorem witness_FramesComplete :
    (∀ source ∈ [Source.announce, .report, .reply 9], ∀ clock ∈ [19139, 19140],
      let s := { State.reset with
        clock := clock
        tx := { frame := some { source := source, bytes := List.replicate 11 0, started := 0 }, announce := none, tail := none } }
      Running s ∧ s.handler.mode = .taking ∧ (s.clock < 11 * (10 * bitPeriods s.straps) ↔ clock = 19139)
        ∧ s.clock = 0 + 10 * (10 * bitPeriods s.straps) + (s.clock - 17400))
    ∧ (let s := (loaded (Vector.replicate 10 (.completed { tag := 0, code := 0x61, status := .badLength, results := [] })) 0
          .resetPending)
      s.handler.mode = .resetPending ∧ ∃ r, s.handler.slots.get 9 = .completed r ∧ r.status ≠ .ok)
    ∧ (let s := { State.reset with clock := 174, tx := { frame := none, announce := none, tail := some (0x55, 0) } }
      Running s ∧ s.tx.frame = none ∧ s.tx.tail = some (0x55, 0) ∧ s.clock = 0 + bitPeriods s.straps ∧ s.txdPin = true) :=
  ⟨by decide +kernel, ⟨rfl, _, rfl, by decide⟩, by decide +kernel⟩

theorem witness_RequestFramesAreJudged :
    FrameMayCome (loaded (Vector.replicate 10 .free) 0 .resetPending)
    ∧ (∀ i, (loaded (Vector.replicate 10 (.reserved 0 0)) 4 .taking).handler.slots.get i ≠ .free)
    ∧ (∀ n ∈ [3, 4],
      let s := loaded ((Vector.replicate 10 (.reserved 0 0)).set 9 .free) n .taking
      FrameMayCome s ∧ s.handler.mode = .taking ∧ s.handler.slots.get 9 = .free ∧ (∀ j, j < 9 → s.handler.slots.get j ≠ .free)
        ∧ s.handler.queue.length = n ∧ s.handler.executing = none)
    ∧ (executing .time [] (loaded (Vector.replicate 10 .free) 4 .taking)).handler.executing ≠ none := by
  decide +kernel

theorem witness_RepliesAreCompleted :
    (Handler.reset.mode = .taking ∧ Handler.reset.executing = none ∧ Handler.reset.queue = [])
    ∧ (loaded (Vector.replicate 10 .free) 4 .taking).handler.queue ≠ []
    ∧ ({ Handler.reset with mode := .resetPending }.mode = .resetPending)
    ∧ (Running (loaded (Vector.replicate 10 .free) 4 .taking)
      ∧ ((loaded (Vector.replicate 10 .free) 4 .taking).handler.startNext.executing.map fun r => requestOf r.code) = some none)
    ∧ (let s := State.reset.setHandler { Handler.reset with queue := [request .time []] }
      s.handler.startNext.executing = some (request .time []) ∧ requestOf (request .time []).code = some .time)
    ∧ (let d : Deferred := { kind := .home 0, tag := 1, code := 0x16, slot := 3 }
      { Handler.reset with table := [d] }.table = [] ++ d :: [] ∧ (∀ x ∈ ([] : List Deferred) ++ [], x.slot ≠ 3)
        ∧ ∀ x ∈ [d], x.slot ≠ 4) := by decide +kernel

theorem witness_EveryRequestIsAnsweredOrDeferred :
    let s := executing .time [] State.reset
    Running s ∧ s.handler.executing = some (request .time []) ∧ requestOf (request .time []).code = some .time
      ∧ ∃ t, exec RequestName.time.command s = .next t := ⟨rfl, rfl, by decide +kernel, _, rfl⟩

theorem witness_RefusedRequestsChangeNothing :
    let s := executing .pulseOutput [8] State.reset
    Running s ∧ s.handler.executing = some (request .pulseOutput [8]) ∧ s.handler.slots.get 0 = .reserved 9 0x31
      ∧ requestOf 0x31 = some .pulseOutput
      ∧ replyOf (exec RequestName.pulseOutput.command s) = some (.badArgument, []) ∧ Status.refuses .badArgument = true := by
  refine ⟨rfl, rfl, rfl, by decide +kernel, by decide +kernel, rfl⟩

theorem witness_TheHandlerJudgesFirst :
    requestOf 0x99 = none ∧ requestOf 0x15 = some .queryAxis ∧ RequestName.queryAxis.lengthFault [] = some .badLength
      ∧ RequestName.setFilter.lengthFault [0, 0, 0, 0, 0, 0, 0, 0, 0, 0, 0, 2] = some .badArgument
      ∧ RequestName.addMarks.lengthFault [0, 0, 1, 0, 0, 0, 0, 0, 0, 0, 2] = some .badArgument
      ∧ RequestName.queryAxis.lengthFault [4] = none ∧ 3 < (arg8 [4] 0).toNat
      ∧ RequestName.queryAxis ∈ [RequestName.configureAxis, .enableAxis, .disableAxis, .clearFault, .setPosition, .queryAxis, .home]
      ∧ (executing .queryAxis [4] State.reset).handler.executing = some (request .queryAxis [4])
      ∧ (∃ fields : List (Option (List Byte)), fields.length = 5 ∧ ∀ x ∈ fields.zip [2, 4, 1, 1, 3], ∀ l ∈ x.1, l.length = x.2) := by
  refine ⟨by decide +kernel, by decide +kernel, by decide +kernel, by decide +kernel, by decide +kernel, by decide +kernel,
    by decide +kernel, by decide +kernel, by decide +kernel, [some [0, 1], some [0, 0, 0, 1], none, some [1], some [0, 0, 7]], ?_⟩
  decide +kernel

/-- Deferred requests in the handler's table. -/
def deferred (l : List Deferred) (s : State) : State := s.setHandler { s.handler with table := l }

theorem witness_GeneralRequestsAreAnswered :
    Executing .identify (request .identify []) (executing .identify [] State.reset)
      ∧ Executing .time (request .time []) (executing .time [] State.reset)
      ∧ (∀ clear : Bool, Executing .status (request .status [byte8 clear.toNat])
        (executing .status [byte8 clear.toNat] State.reset) ∧ (arg8 [byte8 clear.toNat] 0).toNat = clear.toNat)
      ∧ Executing .status (request .status [2]) (executing .status [2] State.reset)
      ∧ Executing .resetDevice (request .resetDevice []) (executing .resetDevice [] State.reset)
      ∧ Executing .abort (request .abort [4]) (executing .abort [4] State.reset)
      ∧ (∀ d ∈ [{ kind := .drain 1 1, tag := 4, code := 0x52, slot := 1 }, { kind := .home 0, tag := 4, code := 0x16, slot := 1 }],
        let s := executing .abort [4] (deferred [d] (State.reset.setAxis 0 (seeking 0 5 .up)))
        Executing .abort (request .abort [4]) s ∧ s.handler.table = [] ++ d :: [] ∧ d.tag = arg8 [4] 0
          ∧ (s.axis 0).state = .seeking)
      ∧ (let l : List Deferred := [{ kind := .drain 1 1, tag := 4, code := 0x52, slot := 1 }, { kind := .home 1, tag := 5, code := 0x16, slot := 2 },
          { kind := .home 0, tag := 4, code := 0x16, slot := 3 }]
        let s := executing .abort [4] (deferred l (State.reset.setAxis 0 (seeking 0 5 .up)))
        Executing .abort (request .abort [4]) s ∧ (s.handler.table.map Deferred.slot).Nodup
          ∧ s.handler.table.filter (fun d => d.tag == arg8 [4] 0) ≠ []
          ∧ (s.handler.table.filter (fun d => d.tag == arg8 [4] 0)).length = 2) := by decide +kernel

/-- A session of a state over entries 200 and 201, of which the first has been sent. -/
def sessionOver (st : SessionState) : State :=
  { State.reset.setQueue (queueFrom 200 [(.outstanding, 1), (.pending, 0)]) with
    session := { Session.reset with state := st, ackTimer := some 0 } }

theorem witness_AcksAndNaksAreJudged :
    (FrameMayCome (sessionOver .closed) ∧ FrameMayCome (sessionOver .stalled) ∧ (sessionOver .closed).session.state = .closed)
    ∧ (sessionOver .opened).reportQueue.lookup 202 = none
    ∧ ((sessionOver .opened).reportQueue.lookup 201).map (fun e => e.sends) = some 0
    ∧ (∀ st ∈ [SessionState.opened, .stalled], (sessionOver st).session.state ≠ .closed
      ∧ ((sessionOver st).reportQueue.lookup 200).map (fun e => e.sends) = some 1) := by decide +kernel

theorem witness_SessionRequestsAreJudged :
    (∀ l ∈ [[(17 : Byte), 0, 0, 0, 0], [0, 0, 9, 0, 0], [0, 0x07, 0xD1, 0, 0], [0, 0, 0, 16, 0], [0, 0, 0, 0, 2], [0, 0, 0, 0, 0],
        [16, 0x07, 0xD0, 15, 1], [1, 0, 10, 1, 1]],
      Executing .openSession (request .openSession l) (executing .openSession l State.reset)
        ∧ Executing .openSession (request .openSession l) (executing .openSession l (sessionOver .opened)))
    ∧ State.reset.session.state = .closed ∧ (executing .openSession [0, 0, 0, 0, 1] State.reset).handler.drain = none
    ∧ (∀ st ∈ [SessionState.closed, .opened, .stalled],
      Executing .closeSession (request .closeSession []) (executing .closeSession [] (sessionOver st)))
    ∧ (∀ l ∈ [[(0 : Byte), 0], [0, 1], [0xFF, 0xFF]],
      Executing .drain (request .drain l) (executing .drain l (sessionOver .opened))) := by decide +kernel

theorem witness_DeliveryTimersExpire :
    (Running (sessionOver .opened) ∧ (sessionOver .opened).session.ackTimer = some 0 ∧ 0 ≤ (sessionOver .opened).clock)
    ∧ (sessionOver .stalled).session.state ≠ .opened
    ∧ (State.reset.handler.table.find? Deferred.isDrain).isNone = true
    ∧ (∀ deadline ∈ [0, 1],
      let d : Deferred := { kind := .drain 1 deadline, tag := 4, code := 0x52, slot := 1 }
      (deferred [d] State.reset).handler.table.find? Deferred.isDrain = some d ∧ Running (deferred [d] State.reset)) := by
  decide +kernel

/-- An OPEN session over an OUTSTANDING and a PENDING entry meets the account of delivery, and a step follows. -/
theorem witness_StepsKeepTheDeliveryAccount :
    DeliveryOk (sessionOver .opened) ∧ ∃ t, step { sessionOver .opened with pending := [.ackFrame 200] } = .next t := by
  refine ⟨⟨by decide +kernel, ⟨by decide +kernel, by decide +kernel⟩, by decide +kernel, by decide +kernel, ?_, by decide +kernel,
    by decide +kernel, by decide +kernel, by decide +kernel, by decide +kernel⟩, _, rfl⟩
  simp [OutstandingFirst, sessionOver, State.reportQueue, State.setQueue, queueFrom]

/-- A state whose axes are all as at reset but for axis 0. -/
theorem axis_of_reset (x : Axis) (a : AxisNo) : (State.reset.setAxis 0 x).axis a = if a = 0 then x else Axis.reset := by
  fin_cases a <;> rfl

/-- An axis SEEKING with a travel limit meets the account of the axes. -/
theorem witness_StepsKeepTheAxes :
    AxesOk (State.reset.setAxis 0 (seeking 4 5 .up)) ∧ ∃ t, step (State.reset.setAxis 0 (seeking 4 5 .up)) = .next t := by
  refine ⟨fun a => ?_, _, rfl⟩
  rw [axis_of_reset]
  split <;>
    simp [Axis.Fits, AxisConfig.Fits, seeking, counting, Axis.reset, AxisConfig.reset, PositionFits, InInt32, AxisState.counts]

/-- The marks of the example meet the account of the marks. -/
theorem witness_StepsKeepTheMarks :
    MarksOk (State.reset.setMarkList 0 exampleMarks) ∧ ∃ t, step (State.reset.setMarkList 0 exampleMarks) = .next t := by
  refine ⟨⟨by decide +kernel, fun a => ?_⟩, _, rfl⟩
  have h : (State.reset.setMarkList 0 exampleMarks).markList a = if a = 0 then exampleMarks else [] := by fin_cases a <;> rfl
  have hx : (State.reset.setMarkList 0 exampleMarks).axis a = Axis.reset := by fin_cases a <;> rfl
  rw [h, hx]
  split
  · refine ⟨by decide +kernel, fun m hm => ?_⟩
    simp only [exampleMarks, List.mem_cons, List.not_mem_nil, or_false] at hm
    rcases hm with rfl | rfl | rfl | rfl | rfl <;>
      simp [Mark.Fits, PositionFits, InInt32, Axis.reset, AxisConfig.reset]
  · simp

/-- A HOME deferred on axis 0, which is SEEKING, meets the account of the requests. -/
theorem witness_StepsKeepTheRequests :
    let s := (State.reset.setAxis 0 (seeking 4 5 .up)).setHandler
      { Handler.reset.setSlot 0 (.deferred 1 0x16) with table := [{ kind := .home 0, tag := 1, code := 0x16, slot := 0 }] }
    RequestsOk s ∧ ∃ t, step s = .next t := by
  refine ⟨⟨⟨by decide +kernel, by decide +kernel, by decide +kernel, by decide +kernel, by decide +kernel, by decide +kernel,
    by decide +kernel⟩, by decide +kernel, ?_, ?_, by decide +kernel⟩, _, rfl⟩
  all_goals
    intro a
    rw [State.setHandler_axis, axis_of_reset]
    split
    · subst a
      simp [seeking, counting, State.setHandler]
    · simp_all [Axis.reset, State.setHandler]

/-- A window under way, a partial frame, a character due and one on its way meet the account of the units. -/
theorem witness_StepsKeepTheUnits :
    let s := { State.reset.setTallyUnit 0 { TallyUnit.reset with mode := .window, timer := some 1 } with
      clock := 9
      rx := { Receiver.reset with state := .body, held := [3], gap := some 0 }
      line := { level := some (false, 9), char := some { edge := 9, samples := [] }, due := some (.byte 7, 0) } }
    UnitsOk s ∧ ∃ t, step s = .next t := by
  refine ⟨⟨fun u => ?_, ?_, ?_⟩, _, rfl⟩
  · have h : State.tallyUnit (State.setTallyUnit State.reset 0 { TallyUnit.reset with mode := .window, timer := some 1 }) u =
        if u = 0 then { TallyUnit.reset with mode := .window, timer := some 1 } else TallyUnit.reset := by
      fin_cases u <;> rfl
    simp only [State.tallyUnit] at h ⊢
    rw [h]
    split <;> simp [TallyUnit.Fits, TallyUnit.reset]
  · simp [Receiver.Fits, Receiver.reset, Receiver.len, lenInRange]
  · simp [LineReceiver.Fits, Receiver.reset]

end Sys2Proof.Tests
end

/-!
PROOF. The input filter (1.2): one lemma for each row of the table of R2 and for the first sample of R4, and what a level
that holds steady does. They settle O5.
-/

namespace Sys2Proof.Machine

/-! ## One sample at a filter -/

/-- R4: the first sample of a filter gives its accepted level, and is no accepted change. -/
@[simp] theorem Filter.sample_first (depth run : Nat) (level : Bool) :
    Filter.sample depth level { accepted := none, run := run } = ({ accepted := some level, run := 0 }, none) := rfl

/-- The table of R2, row by row: the accepted level, the candidate level that completes the run, the candidate level that
does not. -/
theorem Filter.sample_table (depth run : Nat) (a level : Bool) :
    Filter.sample depth level { accepted := some a, run := run } =
      if level = a then ({ accepted := some a, run := 0 }, none)
      else if depth = 0 ∨ run + 1 = depth then
        ({ accepted := some level, run := 0 }, some (if level then Edge.rising else Edge.falling))
      else ({ accepted := some a, run := run + 1 }, none) := rfl

/-- R2: a sample at the accepted level ends the run. -/
@[simp] theorem Filter.sample_accepted (depth run : Nat) (a : Bool) :
    Filter.sample depth a { accepted := some a, run := run } = ({ accepted := some a, run := 0 }, none) := by
  rw [Filter.sample_table, if_pos rfl]

/-- R2: the sample that brings the run to the depth, and any sample at depth 0, accepts the candidate level. -/
theorem Filter.sample_candidate_accepts {depth run : Nat} (a : Bool) (h : depth = 0 ∨ run + 1 = depth) :
    Filter.sample depth (!a) { accepted := some a, run := run } =
      ({ accepted := some !a, run := 0 }, some (if !a then Edge.rising else Edge.falling)) := by
  rw [Filter.sample_table, if_neg (Bool.not_ne_self a), if_pos h]

/-- R2: a sample at the candidate level that leaves the run below the depth is counted, and changes nothing else. -/
theorem Filter.sample_candidate_counts {depth run : Nat} (a : Bool) (h : run + 1 < depth) :
    Filter.sample depth (!a) { accepted := some a, run := run } = ({ accepted := some a, run := run + 1 }, none) := by
  rw [Filter.sample_table, if_neg (Bool.not_ne_self a), if_neg (by omega)]

/-- R2: depth 0 and depth 1 accept alike, as no run is under way at either. -/
theorem Filter.sample_zero_eq_one (level a : Bool) :
    Filter.sample 0 level { accepted := some a, run := 0 } = Filter.sample 1 level { accepted := some a, run := 0 } := by
  rw [Filter.sample_table, Filter.sample_table]
  simp

/-- 1.2: once a level is accepted, the candidate level is the opposite one. -/
@[simp] theorem Filter.candidate_of_accepted (a : Bool) (run : Nat) :
    Filter.candidate { accepted := some a, run := run } = some (!a) := rfl

/-! ## A level that holds steady -/

/-- R2: before the sample that completes it, a run of samples at the candidate level is counted and not accepted. -/
theorem Filter.foldl_sample_candidate_counts {depth : Nat} (a : Bool) :
    ∀ n, n < depth →
      (List.replicate n (!a)).foldl (fun f l => (Filter.sample depth l f).1) { accepted := some a, run := 0 } =
        { accepted := some a, run := n }
  | 0, _ => rfl
  | n + 1, h => by
    rw [List.replicate_succ', List.foldl_concat, Filter.foldl_sample_candidate_counts a n (by omega),
      Filter.sample_candidate_counts a h]

/-- R2: a candidate level that holds steady is accepted on the sample whose number is the depth. -/
theorem Filter.foldl_sample_candidate_accepts {depth : Nat} (a : Bool) (h : 1 ≤ depth) :
    (List.replicate depth (!a)).foldl (fun f l => (Filter.sample depth l f).1) { accepted := some a, run := 0 } =
      { accepted := some !a, run := 0 } := by
  obtain ⟨n, rfl⟩ : ∃ n, depth = n + 1 := ⟨depth - 1, by omega⟩
  rw [List.replicate_succ', List.foldl_concat, Filter.foldl_sample_candidate_counts a n (by omega),
    Filter.sample_candidate_accepts a (.inr rfl)]

/-- Settles O5: the table of R2 and the first sample of R4 hold by their lemmas, and the steady level by induction on the
number of samples that show it. -/
theorem filterFollowsItsTable : Obligations.FilterFollowsItsTable := by
  unfold Obligations.FilterFollowsItsTable
  refine ⟨Filter.sample_table, fun depth run a hdepth => ⟨?counts, ?accepts, ?ends⟩, Filter.sample_zero_eq_one,
    Filter.candidate_of_accepted, Filter.sample_first⟩
  case counts => exact Filter.foldl_sample_candidate_counts a
  case accepts => exact Filter.foldl_sample_candidate_accepts a hdepth
  case ends => rw [Filter.sample_accepted]

end Sys2Proof.Machine

/-!
PROOF. The report filter (5.3): the comparison of two words under a mask, bit by bit, when a record matches an entry (R96), and
the entry that judges it (R97). They settle O32.
-/

namespace Sys2Proof.Machine

/-! ## A record and an entry (R96) -/

/-- The test of a masked difference compares the two words in every bit position that the mask selects, and in no other. -/
theorem xor_and_beq_zero_iff {w : Nat} (x y mask : BitVec w) :
    ((x ^^^ y) &&& mask == 0) = true ↔ ∀ i, i < w → mask.getLsbD i = true → x.getLsbD i = y.getLsbD i := by
  rw [beq_iff_eq, BitVec.eq_of_getLsbD_eq_iff]
  refine forall₂_congr fun i _ => ?_
  cases hm : mask.getLsbD i <;> simp [hm]

/-- R96: the conditions of a match, one for each field that the filter reads. -/
theorem FilterEntry.matchesView_iff (e : FilterEntry) (v : View) :
    e.matchesView v = true ↔
      e.enabled = true ∧ e.kinds.getLsbD v.kind = true ∧ e.axes.getLsbD v.axisBit = true
      ∧ AgreesUnder e.keyMask v.key e.keyValue
      ∧ ∀ i, i < 3 → e.flagsMask.getLsbD i = true → v.flags.getLsbD i = e.flagsValue.getLsbD i := by
  rw [FilterEntry.matchesView, Bool.and_eq_true, Bool.and_eq_true, Bool.and_eq_true, Bool.and_eq_true,
    xor_and_beq_zero_iff, xor_and_beq_zero_iff]
  simp only [and_assoc]

/-- 10.4: a record of an axis has the bit of that axis in an axis set. -/
@[simp] theorem View.axisBit_some (kind : Nat) (a : AxisNo) (key : Word16) (flags : BitVec 3) :
    View.axisBit ⟨kind, some a, key, flags⟩ = a.val := rfl

/-- 10.4: a record of no axis has the bit of NO_AXIS in an axis set. -/
@[simp] theorem View.axisBit_none (kind : Nat) (key : Word16) (flags : BitVec 3) :
    View.axisBit ⟨kind, none, key, flags⟩ = 4 := rfl

/-! ## A record and the table (R97) -/

/-- R97: the default verdict, when no entry matches. -/
theorem judgeRecord_of_no_match {table : Vector FilterEntry 16} {v : View}
    (h : ∀ i, (table.get i).matchesView v = false) : judgeRecord table v = (.deliver, none) := by
  have hnone : table.toList.find? (fun e => e.matchesView v) = none := by
    rw [Vector.find?_toList, Vector.find?_eq_none]
    intro e he
    obtain ⟨i, hi, rfl⟩ := Vector.getElem_of_mem he
    simpa [Vector.get_eq_getElem] using h ⟨i, hi⟩
  rw [judgeRecord, hnone]

/-- R97: the lowest entry that matches gives the verdict and the tally unit; what stands above it is not read. -/
theorem judgeRecord_of_first_match {table : Vector FilterEntry 16} {v : View} {i : Fin 16}
    (hi : (table.get i).matchesView v = true) (hlow : ∀ j, j < i → (table.get j).matchesView v = false) :
    judgeRecord table v = ((table.get i).verdict, (table.get i).tally) := by
  have hfirst : table.toList.find? (fun e => e.matchesView v) = some (table.get i) := by
    rw [Vector.find?_toList, Vector.find?_eq_some_iff_getElem]
    refine ⟨hi, i.val, i.isLt, (Vector.get_eq_getElem table i).symm, fun j hj => ?_⟩
    simpa [Vector.get_eq_getElem] using hlow ⟨j, by omega⟩ hj
  rw [judgeRecord, hfirst]

/-- Settles O32: R96 by the conditions of a match with the two cases of the record's axis, R97 by the table's two cases. -/
theorem theFirstMatchJudges : Obligations.TheFirstMatchJudges := by
  unfold Obligations.TheFirstMatchJudges
  refine ⟨?matching, fun table v => ⟨judgeRecord_of_no_match, fun i => judgeRecord_of_first_match⟩⟩
  case matching =>
    rintro e ⟨kind, _ | a, key, flags⟩
    · rw [FilterEntry.matchesView_iff, View.axisBit_none]
    · rw [FilterEntry.matchesView_iff, View.axisBit_some]

end Sys2Proof.Machine

/-!
PROOF. The operations of the report queue (chapter 6): on a numbered queue an entry's number names its place (R111), and what a
removal of the oldest entries leaves, with the GAP record and without (R115, R119, R121). They settle O37.
-/

namespace Sys2Proof.Machine

/-! ## The place of a sequence number (R111) -/

section
variable {q : ReportQueue} {k : Nat} {e : QueueEntry}

/-- R111: sequence numbers count up from the oldest one. -/
theorem Numbered.seq_eq (hq : Numbered q) (he : q.entries[k]? = some e) : e.seq = q.oldest + BitVec.ofNat 16 k := by
  obtain ⟨hseq, -⟩ := hq
  obtain ⟨hk, -⟩ := List.getElem?_eq_some_iff.mp he
  simpa [he] using hseq k hk

/-- R111: the number of an entry gives its place, as a queue within its capacity holds no number twice. -/
theorem Numbered.place_seq (hq : Numbered q) (hlen : q.entries.length ≤ Config.queueSize) (he : q.entries[k]? = some e) :
    q.place e.seq = k := by
  obtain ⟨hk, -⟩ := List.getElem?_eq_some_iff.mp he
  have hsize : Config.queueSize < 2 ^ 16 := by decide
  rw [ReportQueue.place, hq.seq_eq he, BitVec.add_comm, BitVec.add_sub_cancel, BitVec.toNat_ofNat,
    Nat.mod_eq_of_lt (by omega)]

/-- R117: the number of an entry names that entry. -/
theorem Numbered.lookup_seq (hq : Numbered q) (hlen : q.entries.length ≤ Config.queueSize) (he : q.entries[k]? = some e) :
    q.lookup e.seq = some e := by
  rw [ReportQueue.lookup, hq.place_seq hlen he, he]

/-- R119: remove through the number of an entry takes it and all before it. -/
theorem Numbered.removeThrough_seq (hq : Numbered q) (hlen : q.entries.length ≤ Config.queueSize)
    (he : q.entries[k]? = some e) (stamp : Word32) :
    q.removeThrough stamp e.seq = q.removeOldest stamp (k + 1) := by
  rw [ReportQueue.removeThrough, hq.place_seq hlen he]

/-- R119: remove before the number of an entry takes all before it. -/
theorem Numbered.removeBefore_seq (hq : Numbered q) (hlen : q.entries.length ≤ Config.queueSize)
    (he : q.entries[k]? = some e) (stamp : Word32) :
    q.removeBefore stamp e.seq = q.removeOldest stamp k := by
  rw [ReportQueue.removeBefore, hq.place_seq hlen he]

end

/-! ## The removal of the oldest entries (R115) -/

section
variable {q : ReportQueue} {n : Nat} (stamp : Word32)

/-- R115: while nothing has been lost a removal admits no GAP record. -/
theorem ReportQueue.removeOldest_of_no_loss (n : Nat) (hlost : q.lost = Loss.zero) :
    q.removeOldest stamp n = { q with entries := q.entries.drop n } :=
  if_pos (.inr hlost)

/-- R115: a removal that takes no entry admits no GAP record, whatever has been lost. -/
theorem ReportQueue.removeOldest_of_none_taken (h : n = 0 ∨ q.entries = []) : q.removeOldest stamp n = q := by
  obtain ⟨hcount, hleft⟩ : min n q.entries.length = 0 ∧ q.entries.drop n = q.entries := by
    rcases h with rfl | hnil
    · simp
    · simp [hnil]
  rw [ReportQueue.removeOldest, hleft, ReportQueue.admitGap, if_pos (.inl hcount)]

/-- R115: a removal that takes an entry after a loss admits the GAP record with the loss tally, which starts again from 0. -/
theorem ReportQueue.removeOldest_of_loss (hn : n ≠ 0) (hheld : q.entries ≠ []) (hlost : q.lost ≠ Loss.zero) :
    q.removeOldest stamp n =
      { ReportQueue.append { stamp := stamp, body := .gap q.lost } { q with entries := q.entries.drop n } with
        lost := Loss.zero } := by
  have hcount : min n q.entries.length ≠ 0 := by
    have := List.length_pos_iff.mpr hheld
    omega
  exact if_neg (not_or.mpr ⟨hcount, hlost⟩)

/-- R121: a discard of an empty queue leaves it. -/
theorem ReportQueue.discardAll_of_empty (h : q.entries = []) : q.discardAll stamp = q :=
  ReportQueue.removeOldest_of_none_taken stamp (.inr h)

/-- R121: a discard takes every entry held, and the GAP record of a loss is then the only one. -/
theorem ReportQueue.discardAll_of_held (hheld : q.entries ≠ []) :
    q.discardAll stamp =
      if q.lost = Loss.zero then { q with entries := [] }
      else { ReportQueue.append { stamp := stamp, body := .gap q.lost } { q with entries := [] } with lost := Loss.zero } := by
  rw [ReportQueue.discardAll]
  split
  · next hlost => rw [ReportQueue.removeOldest_of_no_loss stamp _ hlost, List.drop_length]
  · next hlost =>
    rw [ReportQueue.removeOldest_of_loss stamp (mt List.length_eq_zero_iff.mp hheld) hheld hlost, List.drop_length]

end

/-- Settles O37: the number of an entry gives its place, so that each removal is one of the oldest entries, with the GAP record
or without; a revert is the change of states by its definition. -/
theorem queueOperationsLeaveTheRest : Obligations.QueueOperationsLeaveTheRest := by
  unfold Obligations.QueueOperationsLeaveTheRest
  intro q stamp hlen hq
  refine ⟨fun k e he => ⟨hq.lookup_seq hlen he, ?noLoss, ?loss⟩, ReportQueue.discardAll_of_empty stamp,
    ReportQueue.discardAll_of_held stamp, rfl⟩
  all_goals
    intro hlost
    rw [hq.removeThrough_seq hlen he, hq.removeBefore_seq hlen he]
  case noLoss =>
    exact ⟨ReportQueue.removeOldest_of_no_loss stamp _ hlost, ReportQueue.removeOldest_of_no_loss stamp _ hlost⟩
  case loss =>
    have hheld : q.entries ≠ [] := fun hnil => by simp [hnil] at he
    refine ⟨ReportQueue.removeOldest_of_loss stamp k.succ_ne_zero hheld hlost, fun hk => ?some, fun hk => ?none⟩
    case some => exact ReportQueue.removeOldest_of_loss stamp (Nat.one_le_iff_ne_zero.mp hk) hheld hlost
    case none => exact ReportQueue.removeOldest_of_none_taken stamp (.inl hk)

end Sys2Proof.Machine

/-!
PROOF. The report queue under its operations (chapter 6): what each of them keeps of the account of delivery, in two halves, the
queue's own and the session's.
-/

namespace Sys2Proof.Machine

/-! ## The account of delivery in two halves -/

/-- The account of delivery as far as it speaks of the queue alone. -/
structure QueueOk (q : ReportQueue) : Prop where
  capacity : q.entries.length ≤ Config.queueSize
  numbered : Numbered q
  lostFull : q.lost ≠ Loss.zero → q.entries.length = Config.queueSize
  lostFits : q.lost.fire ≤ 65535 ∧ q.lost.capture ≤ 65535 ∧ q.lost.other ≤ 65535
  outstandingFirst : OutstandingFirst q
  sends : ∀ e ∈ q.entries, e.sends ≤ 255 ∧ (e.state = .outstanding → 1 ≤ e.sends)

/-- The account of delivery as far as it speaks of the session, beside a number of OUTSTANDING entries. -/
structure SessionOk (outstanding : Nat) (x : Session) : Prop where
  window : 1 ≤ x.window ∧ x.window ≤ 16
  within : outstanding ≤ x.window
  opened : x.state ≠ .opened → outstanding = 0
  timer : x.ackTimer.isSome ↔ outstanding ≠ 0

theorem deliveryOk_iff {s : State} :
    DeliveryOk s ↔ QueueOk s.reportQueue ∧ SessionOk s.reportQueue.outstanding s.session :=
  ⟨fun ⟨h1, h2, h3, h4, h5, h6, h7, h8, h9, h10⟩ => ⟨⟨h1, h2, h3, h4, h5, h6⟩, ⟨h7, h8, h9, h10⟩⟩,
    fun ⟨⟨h1, h2, h3, h4, h5, h6⟩, ⟨h7, h8, h9, h10⟩⟩ => ⟨h1, h2, h3, h4, h5, h6, h7, h8, h9, h10⟩⟩

/-! ## Numbers (R111) -/

/-- The oldest number is that of the first entry, or the next one. -/
theorem ReportQueue.oldest_eq (q : ReportQueue) : q.oldest = (q.entries.map QueueEntry.seq).headD q.next := by
  cases h : q.entries <;> simp [ReportQueue.oldest, h]

/-- The numbering reads the numbers alone. -/
theorem Numbered.congr {p q : ReportQueue} (h : Numbered q) (hseq : p.entries.map QueueEntry.seq = q.entries.map QueueEntry.seq)
    (hnext : p.next = q.next) : Numbered p := by
  have hlen : p.entries.length = q.entries.length := by simpa using congrArg List.length hseq
  have hold : p.oldest = q.oldest := by rw [p.oldest_eq, q.oldest_eq, hseq, hnext]
  unfold Numbered
  rw [hseq, hold, hnext, hlen]
  exact h

/-- A record that joins the queue leaves the oldest number. -/
@[simp] theorem ReportQueue.append_oldest (r : Record) (q : ReportQueue) : (q.append r).oldest = q.oldest := by
  cases h : q.entries <;> simp [ReportQueue.append, ReportQueue.oldest, h]

/-- R112: a record that joins the queue takes the next number. -/
theorem Numbered.append {q : ReportQueue} (h : Numbered q) (r : Record) : Numbered (q.append r) := by
  obtain ⟨hseq, hnext⟩ := h
  refine ⟨fun i hi => ?_, ?_⟩
  · rw [ReportQueue.append_oldest]
    rcases Nat.lt_or_ge i q.entries.length with hlt | hge
    · rw [← hseq i hlt]
      simp [ReportQueue.append, List.getElem?_append_left, hlt]
    · have : i = q.entries.length := by simp [ReportQueue.append] at hi; omega
      subst this
      simp [ReportQueue.append, hnext]
  · rw [ReportQueue.append_oldest]
    simp [ReportQueue.append, hnext, BitVec.ofNat_add, BitVec.add_assoc]

/-- R119: a removal of the oldest entries leaves the numbers of the others. -/
theorem Numbered.drop {q : ReportQueue} (h : Numbered q) (n : Nat) : Numbered { q with entries := q.entries.drop n } := by
  obtain ⟨hseq, hnext⟩ := h
  have hold : ReportQueue.oldest { q with entries := q.entries.drop n } =
      q.oldest + BitVec.ofNat 16 (min n q.entries.length) := by
    rw [ReportQueue.oldest_eq]
    rcases Nat.lt_or_ge n q.entries.length with hlt | hge
    · rw [Nat.min_eq_left hlt.le]
      have := hseq n hlt
      simp only [List.map_drop, List.headD_eq_head?_getD, List.head?_drop, this, Option.getD_some]
    · rw [Nat.min_eq_right hge, List.drop_eq_nil_of_le hge, ← hnext]
      rfl
  refine ⟨fun i hi => ?_, ?_⟩
  · simp only [List.length_drop] at hi
    rw [hold, BitVec.add_assoc, ← BitVec.ofNat_add, Nat.min_eq_left (by omega), List.map_drop, List.getElem?_drop]
    exact hseq (n + i) (by omega)
  · rw [hold, BitVec.add_assoc, ← BitVec.ofNat_add, List.length_drop]
    exact hnext.trans (congrArg _ (congrArg _ (by omega)))

/-! ## Admission -/

/-- R113: a lost record raises one class of the loss tally, up to its bound. -/
theorem Loss.count_fits {l : Loss} (b : RecordBody) (h : l.fire ≤ 65535 ∧ l.capture ≤ 65535 ∧ l.other ≤ 65535) :
    (l.count b).fire ≤ 65535 ∧ (l.count b).capture ≤ 65535 ∧ (l.count b).other ≤ 65535 := by
  have raised : ∀ n, n ≤ 65535 → raise16 n ≤ 65535 := by
    intro n hn
    unfold raise16
    split <;> omega
  obtain ⟨h1, h2, h3⟩ := h
  cases b <;> simp [Loss.count, raised, h1, h2, h3]

/-- A record that joins the queue is PENDING. -/
@[simp] theorem ReportQueue.append_outstanding (r : Record) (q : ReportQueue) :
    (q.append r).outstanding = q.outstanding := by
  simp [ReportQueue.append, ReportQueue.outstanding]

@[simp] theorem ReportQueue.append_length (r : Record) (q : ReportQueue) :
    (q.append r).entries.length = q.entries.length + 1 := by
  simp [ReportQueue.append]

/-- R112: the account after an admission to a queue that has room. -/
theorem QueueOk.append {q : ReportQueue} (h : QueueOk q) (r : Record) (hroom : q.entries.length < Config.queueSize)
    (hlost : q.lost = Loss.zero) : QueueOk (q.append r) where
  capacity := by simp; omega
  numbered := h.numbered.append r
  lostFull := fun hne => absurd hlost hne
  lostFits := h.lostFits
  outstandingFirst := by
    have := h.outstandingFirst
    simp only [OutstandingFirst, ReportQueue.append, List.pairwise_append] at this ⊢
    exact ⟨this, by simp, by simp⟩
  sends := by
    intro e he
    simp only [ReportQueue.append, List.mem_append, List.mem_singleton] at he
    rcases he with he | rfl
    · exact h.sends e he
    · simp

/-- R112, R113: the account after an offer. -/
theorem QueueOk.offer {q : ReportQueue} (h : QueueOk q) (r : Record) : QueueOk (q.offer r) := by
  rcases q.offer_cases r with ⟨hroom, e⟩ | ⟨hfull, e⟩ <;> rw [e]
  · refine h.append r hroom ?_
    by_contra hne
    exact absurd (h.lostFull hne) (by omega)
  · exact ⟨h.capacity, h.numbered.congr rfl rfl, fun _ => Nat.le_antisymm h.capacity hfull, Loss.count_fits _ h.lostFits,
      h.outstandingFirst, h.sends⟩

@[simp] theorem ReportQueue.offer_outstanding (r : Record) (q : ReportQueue) :
    (q.offer r).outstanding = q.outstanding := by
  rcases q.offer_cases r with ⟨-, e⟩ | ⟨-, e⟩ <;> rw [e]
  · exact q.append_outstanding r
  · rfl

/-! ## Removal -/

/-- The account after a removal of the oldest entries, while nothing has been lost. -/
theorem QueueOk.drop {q : ReportQueue} (h : QueueOk q) (n : Nat) (lost : Loss)
    (hfull : lost ≠ Loss.zero → (q.entries.drop n).length = Config.queueSize)
    (hfits : lost.fire ≤ 65535 ∧ lost.capture ≤ 65535 ∧ lost.other ≤ 65535) :
    QueueOk { q with entries := q.entries.drop n, lost := lost } where
  capacity := by have := h.capacity; simp; omega
  numbered := (h.numbered.drop n).congr rfl rfl
  lostFull := hfull
  lostFits := hfits
  outstandingFirst := h.outstandingFirst.sublist (List.drop_sublist n _)
  sends := fun e he => h.sends e (List.mem_of_mem_drop he)

/-- R115: the account after a removal with its GAP admission. -/
theorem QueueOk.removeOldest {q : ReportQueue} (h : QueueOk q) (stamp : Word32) (n : Nat) :
    QueueOk (q.removeOldest stamp n) := by
  by_cases hnone : n = 0 ∨ q.entries = []
  · rw [ReportQueue.removeOldest_of_none_taken stamp hnone]
    exact h
  obtain ⟨hn, hheld⟩ := not_or.mp hnone
  by_cases hlost : q.lost = Loss.zero
  · rw [ReportQueue.removeOldest_of_no_loss stamp n hlost]
    exact h.drop n q.lost (fun hne => absurd hlost hne) h.lostFits
  · rw [ReportQueue.removeOldest_of_loss stamp hn hheld hlost]
    have hroom : (q.entries.drop n).length < Config.queueSize := by
      have := h.lostFull hlost
      simp [Config.queueSize] at this ⊢
      omega
    exact (h.drop n Loss.zero (fun hne => absurd rfl hne) (by decide)).append { stamp := stamp, body := .gap q.lost } hroom rfl

/-- A removal raises no count of OUTSTANDING entries. -/
theorem ReportQueue.removeOldest_outstanding (q : ReportQueue) (stamp : Word32) (n : Nat) :
    (q.removeOldest stamp n).outstanding = ReportQueue.outstanding { q with entries := q.entries.drop n } := by
  unfold ReportQueue.removeOldest
  rcases ReportQueue.admitGap_cases stamp (min n q.entries.length) { q with entries := q.entries.drop n } with
    ⟨-, e⟩ | ⟨-, -, e⟩ <;> rw [e]
  exact ReportQueue.append_outstanding _ _

theorem ReportQueue.removeOldest_outstanding_le (q : ReportQueue) (stamp : Word32) (n : Nat) :
    (q.removeOldest stamp n).outstanding ≤ q.outstanding := by
  rw [ReportQueue.removeOldest_outstanding]
  exact (List.drop_sublist n _).countP_le

/-- R121: nothing is OUTSTANDING once all has been discarded. -/
@[simp] theorem ReportQueue.discardAll_outstanding (q : ReportQueue) (stamp : Word32) :
    (q.discardAll stamp).outstanding = 0 := by
  rw [ReportQueue.discardAll, ReportQueue.removeOldest_outstanding, List.drop_length]
  rfl

/-- R120: the account after a revert. -/
theorem QueueOk.revert {q : ReportQueue} (h : QueueOk q) : QueueOk q.revert where
  capacity := by simpa using h.capacity
  numbered := h.numbered.congr (by simp [ReportQueue.revert, Function.comp_def]) rfl
  lostFull := by simpa using h.lostFull
  lostFits := h.lostFits
  outstandingFirst := List.pairwise_map.mpr (List.pairwise_of_forall fun _ _ _ => rfl)
  sends := by
    intro e he
    obtain ⟨x, hx, rfl⟩ := List.mem_map.mp he
    exact ⟨(h.sends x hx).1, by simp⟩

/-! ## Mark sent (R118) -/

/-- R118: mark sent leaves the entries as they stand but for the oldest PENDING one, which is the copy it hands on. -/
theorem ReportQueue.markSent_eq_some {q q' : ReportQueue} {c : QueueEntry} (h : q.markSent = some (c, q')) :
    ∃ old e new, q.entries = old ++ e :: new ∧ (∀ x ∈ old, x.state = .outstanding) ∧ e.state = .pending
      ∧ c = { e with state := .outstanding, sends := if e.sends < 255 then e.sends + 1 else e.sends }
      ∧ q' = { q with entries := old ++ c :: new } := by
  unfold ReportQueue.markSent at h
  split at h
  · cases h
  · next _ _ hm =>
    simp only [Option.some.injEq, Prod.mk.injEq] at h
    obtain ⟨rfl, rfl⟩ := h
    obtain ⟨old, e, new, h1, h2, h3, h4, h5⟩ := markFirst_eq_some hm
    exact ⟨old, e, new, h1, h2, h3, h5, by rw [h4]⟩

/-- R118: mark sent raises the count of OUTSTANDING entries by 1. -/
theorem ReportQueue.markSent_outstanding {q q' : ReportQueue} {c : QueueEntry} (h : q.markSent = some (c, q')) :
    q'.outstanding = q.outstanding + 1 := by
  obtain ⟨old, e, new, he, -, hp, rfl, rfl⟩ := ReportQueue.markSent_eq_some h
  simp [ReportQueue.outstanding, he, hp]
  omega

/-- R118: mark sent leaves the records. -/
theorem ReportQueue.markSent_records {q q' : ReportQueue} {c : QueueEntry} (h : q.markSent = some (c, q')) :
    q'.entries.map QueueEntry.record = q.entries.map QueueEntry.record := by
  obtain ⟨old, e, new, he, -, -, rfl, rfl⟩ := ReportQueue.markSent_eq_some h
  simp [he]

/-- R118: the account after mark sent. -/
theorem QueueOk.markSent {q q' : ReportQueue} {c : QueueEntry} (h : QueueOk q) (hm : q.markSent = some (c, q')) :
    QueueOk q' := by
  obtain ⟨old, e, new, he, hold, hp, hc, rfl⟩ := ReportQueue.markSent_eq_some hm
  have hsend := h.sends e (by simp [he])
  refine ⟨?_, h.numbered.congr (by simp [he, hc]) rfl, ?_, h.lostFits, ?_, ?_⟩
  · simpa [he] using h.capacity
  · simpa [he] using h.lostFull
  · have hpair := h.outstandingFirst
    simp only [OutstandingFirst, he, List.pairwise_append, List.pairwise_cons] at hpair ⊢
    obtain ⟨h1, ⟨h2, h3⟩, -⟩ := hpair
    exact ⟨h1, ⟨by simp [hc], h3⟩, fun x hx y _ hxp => by simp [hold x hx] at hxp⟩
  · intro x hx
    simp only [List.mem_append, List.mem_cons] at hx
    rcases hx with hx | rfl | hx
    · exact h.sends x (by simp [he, hx])
    · rw [hc]
      dsimp only
      split <;> exact ⟨by omega, fun _ => by omega⟩
    · exact h.sends x (by simp [he, hx])

/-! ## A formed record (R88) -/

theorem QueueOk.form {r : Reports} (h : QueueOk r.queue) (stamp : Word32) (b : RecordBody) :
    QueueOk (r.form stamp b).queue := by
  have one : ∀ (u : UnitNo) (x : Reports), QueueOk x.queue → QueueOk (x.tallyOne stamp u).queue := by
    intro u x hx
    unfold Reports.tallyOne
    dsimp only
    split
    · exact hx
    · exact hx.offer _
  unfold Reports.form
  split
  · exact h
  · dsimp only
    split <;> split
    · exact h.offer _
    · exact h
    · exact one _ _ (h.offer _)
    · exact one _ _ h

@[simp] theorem Reports.form_outstanding (stamp : Word32) (b : RecordBody) (r : Reports) :
    (r.form stamp b).queue.outstanding = r.queue.outstanding := by
  have one : ∀ (u : UnitNo) (x : Reports), (x.tallyOne stamp u).queue.outstanding = x.queue.outstanding := by
    intro u x
    unfold Reports.tallyOne
    dsimp only
    split
    · rfl
    · exact ReportQueue.offer_outstanding _ _
  unfold Reports.form
  split
  · rfl
  · dsimp only
    split <;> split
    · exact ReportQueue.offer_outstanding _ _
    · rfl
    · exact (one _ _).trans (ReportQueue.offer_outstanding _ _)
    · exact one _ _

/-! ## The session -/

/-- R160: the session beside a queue without an OUTSTANDING entry, its ack timer stopped. -/
theorem SessionOk.quiet {x : Session} (hw : 1 ≤ x.window ∧ x.window ≤ 16) (ht : x.ackTimer = none) : SessionOk 0 x :=
  ⟨hw, Nat.zero_le _, fun _ => rfl, by simp [ht]⟩

end Sys2Proof.Machine

/-!
PROOF. The request handler's operations and the account of the reply slots (R141 to R149): each moves one slot from one holder to
another, and the account needs to be judged at that slot alone.
-/

namespace Sys2Proof.Machine

/-! ## What each operation leaves -/

@[simp] theorem Handler.complete_table (h : Handler) (i : SlotNo) (r : Reply) : (h.complete i r).table = h.table := rfl
@[simp] theorem Handler.complete_executing (h : Handler) (i : SlotNo) (r : Reply) :
    (h.complete i r).executing = h.executing := rfl
@[simp] theorem Handler.complete_order (h : Handler) (i : SlotNo) (r : Reply) :
    (h.complete i r).order = h.order ++ [i] := rfl
@[simp] theorem Handler.dropEntry_table (h : Handler) (i : SlotNo) :
    (h.dropEntry i).table = h.table.filter fun x => x.slot != i := rfl
@[simp] theorem Handler.dropEntry_executing (h : Handler) (i : SlotNo) : (h.dropEntry i).executing = h.executing := rfl
@[simp] theorem Handler.dropEntry_order (h : Handler) (i : SlotNo) : (h.dropEntry i).order = h.order := rfl
@[simp] theorem Handler.deferEntry_table (h : Handler) (d : Deferred) : (h.deferEntry d).table = h.table ++ [d] := rfl
@[simp] theorem Handler.deferEntry_order (h : Handler) (d : Deferred) : (h.deferEntry d).order = h.order := rfl
@[simp] theorem Handler.endExecution_table (h : Handler) : h.endExecution.table = h.table := rfl
@[simp] theorem Handler.endExecution_order (h : Handler) : h.endExecution.order = h.order := rfl
@[simp] theorem Handler.accept_table (h : Handler) (r : Request) : (h.accept r).table = h.table := rfl
@[simp] theorem Handler.accept_order (h : Handler) (r : Request) : (h.accept r).order = h.order := rfl

/-! ## One slot changes -/

/-- The account of the slots after slot `i` has taken content `x`: whoever holds another slot held it before, and slot `i` is
held, if at all, by one for whom `x` is right. -/
theorem Handler.Accounts.of_set {h h' : Handler} (ok : h.Accounts) (i : SlotNo) (x : Slot)
    (hslots : h'.slots = h.slots.set i.val x i.isLt) (hnodup : h'.slotsHeld.Nodup)
    (hothers : ∀ j, j ≠ i → (j ∈ h'.slotsHeld ↔ j ∈ h.slotsHeld)) (hfree : x = .free ↔ i ∉ h'.slotsHeld)
    (hrequests : ∀ r ∈ h'.queue ++ h'.executing.toList,
      (r.slot ≠ i ∧ r ∈ h.queue ++ h.executing.toList) ∨ (r.slot = i ∧ x = .reserved r.tag r.code))
    (htable : ∀ d ∈ h'.table, (d.slot ≠ i ∧ d ∈ h.table) ∨ (d.slot = i ∧ x = .deferred d.tag d.code))
    (horder : ∀ j ∈ h'.order, (j ≠ i ∧ j ∈ h.order) ∨ (j = i ∧ x.isCompleted = true))
    (hqueue : h'.queue.length ≤ Config.requestQueueSize) (hdrain : (h'.table.filter Deferred.isDrain).length ≤ 1) :
    h'.Accounts := by
  obtain ⟨-, okFree, okRequests, okTable, okOrder, -, -⟩ := ok
  have at_i : h'.slots.get i = x := by rw [hslots, vector_get_set]
  have at_other : ∀ j, j ≠ i → h'.slots.get j = h.slots.get j := fun j hj => by
    rw [hslots, vector_get_set_ne _ _ _ _ hj.symm]
  refine ⟨hnodup, fun j => ?free, fun r hr => ?requests, fun d hd => ?table, fun j hj => ?order, hqueue, hdrain⟩
  case free =>
    by_cases hj : j = i
    · rw [hj, at_i, hfree]
    · rw [at_other j hj, okFree, hothers j hj]
  case requests =>
    rcases hrequests r hr with ⟨hne, hold⟩ | ⟨he, hx⟩
    · rw [at_other _ hne, okRequests r hold]
    · rw [he, at_i, hx]
  case table =>
    rcases htable d hd with ⟨hne, hold⟩ | ⟨he, hx⟩
    · rw [at_other _ hne, okTable d hold]
    · rw [he, at_i, hx]
  case order =>
    rcases horder j hj with ⟨hne, hold⟩ | ⟨he, hx⟩
    · rw [at_other _ hne]
      exact okOrder j hold
    · rw [he, at_i, hx]

/-! ## Who holds a slot -/

/-- A slot held, by whom. -/
theorem Handler.mem_slotsHeld {h : Handler} {i : SlotNo} :
    i ∈ h.slotsHeld ↔ (∃ r ∈ h.queue, r.slot = i) ∨ (∃ r ∈ h.executing, r.slot = i) ∨ (∃ d ∈ h.table, d.slot = i)
      ∨ i ∈ h.order := by
  cases he : h.executing <;> simp [Handler.slotsHeld, he, eq_comm]

/-- No slot is held twice. -/
theorem Handler.slotsHeld_nodup_iff {h : Handler} :
    h.slotsHeld.Nodup ↔ ∀ i, (h.queue.map Request.slot).count i + (h.executing.toList.map Request.slot).count i
      + (h.table.map Deferred.slot).count i + h.order.count i ≤ 1 := by
  rw [List.nodup_iff_count_le_one]
  simp only [Handler.slotsHeld, List.count_append]

/-! ## The operations -/

section
variable {h : Handler} {r : Request} {reply : Reply}

/-- R145: the start of the next request keeps the account. -/
theorem Handler.Accounts.startNext (ok : h.Accounts) : h.startNext.Accounts := by
  rcases h.startNext_cases with e | ⟨r, rest, -, hex, hq, e⟩ <;> rw [e]
  · exact ok
  obtain ⟨okNodup, okFree, okRequests, okTable, okOrder, okQueue, okDrain⟩ := ok
  have hheld : ∀ j, j ∈ h.slotsHeld ↔ j ∈ Handler.slotsHeld { h with executing := some r, queue := rest } := by
    intro j
    simp only [Handler.mem_slotsHeld, hq, hex]
    simp [or_assoc, or_left_comm]
  refine ⟨?_, fun j => by rw [← hheld]; exact okFree j, fun x hx => okRequests x ?_, okTable, okOrder, ?_, okDrain⟩
  · rw [Handler.slotsHeld_nodup_iff] at okNodup ⊢
    intro i
    have := okNodup i
    simp only [hq, hex, List.map_cons, List.count_cons, Option.toList] at this ⊢
    simp at this ⊢
    omega
  · simp [hq, hex] at hx ⊢
    tauto
  · simp [hq] at okQueue
    dsimp only
    omega

/-- The executing request has its slot, which nothing else holds. -/
theorem Handler.Accounts.executing_slot (ok : h.Accounts) (hex : h.executing = some r) :
    (∀ x ∈ h.queue, x.slot ≠ r.slot) ∧ (∀ d ∈ h.table, d.slot ≠ r.slot) ∧ r.slot ∉ h.order := by
  obtain ⟨okNodup, -⟩ := ok
  simp only [Handler.slotsHeld, hex, List.nodup_append, Option.toList] at okNodup
  grind

/-- R147: an answer keeps the account. -/
theorem Handler.Accounts.answer (ok : h.Accounts) (hex : h.executing = some r) :
    (h.complete r.slot reply).endExecution.Accounts := by
  obtain ⟨hqueue, htable, horder⟩ := ok.executing_slot hex
  obtain ⟨okNodup, -, -, -, -, okQueue, okDrain⟩ := id ok
  refine ok.of_set r.slot (.completed reply) rfl ?_ (fun j hj => ?_) ?_ (fun x hx => ?_) (fun d hd => ?_) (fun j hj => ?_)
    okQueue okDrain
  · rw [Handler.slotsHeld_nodup_iff] at okNodup ⊢
    intro i
    have := okNodup i
    simp only [hex, Handler.complete, Handler.endExecution, Handler.setSlot, List.count_append] at this ⊢
    simp at this ⊢
    omega
  · simp [Handler.mem_slotsHeld, Handler.complete, Handler.endExecution, Handler.setSlot, hex, hj, Ne.symm hj]
  · simp [Handler.mem_slotsHeld, Handler.complete, Handler.endExecution, Handler.setSlot]
  · simp [Handler.complete, Handler.endExecution, Handler.setSlot] at hx
    exact .inl ⟨hqueue x hx, by simp [hx]⟩
  · exact .inl ⟨htable d hd, hd⟩
  · simp [Handler.complete, Handler.endExecution] at hj
    rcases hj with hj | rfl
    · exact .inl ⟨fun e => horder (e ▸ hj), hj⟩
    · exact .inr ⟨rfl, rfl⟩

/-- R148: a deferral keeps the account; a second DRAIN is none of it. -/
theorem Handler.Accounts.defer (ok : h.Accounts) (hex : h.executing = some r) {kind : DeferredKind}
    (hkind : ∀ limit stop, kind = .drain limit stop → h.drain = none) :
    (h.deferEntry { kind := kind, tag := r.tag, code := r.code, slot := r.slot }).endExecution.Accounts := by
  obtain ⟨hqueue, htable, horder⟩ := ok.executing_slot hex
  obtain ⟨okNodup, -, -, -, -, okQueue, okDrain⟩ := id ok
  refine ok.of_set r.slot (.deferred r.tag r.code) rfl ?_ (fun j hj => ?_) ?_ (fun x hx => ?_) (fun d hd => ?_)
    (fun j hj => ?_) okQueue ?_
  · rw [Handler.slotsHeld_nodup_iff] at okNodup ⊢
    intro i
    have := okNodup i
    simp only [hex, Handler.deferEntry, Handler.endExecution, Handler.setSlot, List.map_append, List.count_append] at this ⊢
    simp at this ⊢
    omega
  · simp [Handler.mem_slotsHeld, Handler.deferEntry, Handler.endExecution, Handler.setSlot, hex, Ne.symm hj, or_and_right, exists_or]
  · simp [Handler.mem_slotsHeld, Handler.deferEntry, Handler.endExecution, Handler.setSlot, or_and_right, exists_or]
  · simp [Handler.deferEntry, Handler.endExecution, Handler.setSlot] at hx
    exact .inl ⟨hqueue x hx, by simp [hx]⟩
  · simp [Handler.deferEntry, Handler.endExecution] at hd
    rcases hd with hd | rfl
    · exact .inl ⟨htable d hd, hd⟩
    · exact .inr ⟨rfl, rfl⟩
  · exact .inl ⟨fun e => horder (e ▸ hj), hj⟩
  · simp only [Handler.deferEntry, Handler.endExecution, List.filter_append, List.length_append]
    cases kind with
    | home a => simpa [Deferred.isDrain] using okDrain
    | drain limit stop =>
      have hnone : h.table.filter Deferred.isDrain = [] := by
        simpa [Handler.drain, List.filter_eq_nil_iff] using hkind limit stop rfl
      rw [hnone, List.length_nil, Nat.zero_add]
      exact List.length_filter_le _ _

/-- No two deferred requests have one slot. -/
theorem Handler.Accounts.table_nodup (ok : h.Accounts) : (h.table.map Deferred.slot).Nodup := by
  obtain ⟨okNodup, -⟩ := ok
  exact okNodup.sublist ((List.sublist_append_right _ _).trans (List.sublist_append_left _ _))

/-- A deferred request is told by its slot. -/
theorem Handler.Accounts.table_slot_inj (ok : h.Accounts) {d e : Deferred} (hd : d ∈ h.table) (he : e ∈ h.table)
    (hslot : d.slot = e.slot) : d = e :=
  List.inj_on_of_nodup_map ok.table_nodup hd he hslot

/-- R149: the ending of a deferred request keeps the account. -/
theorem Handler.Accounts.end_deferred (ok : h.Accounts) {d : Deferred} (hd : d ∈ h.table) :
    ((h.dropEntry d.slot).complete d.slot reply).Accounts := by
  obtain ⟨okNodup, -, -, -, -, okQueue, okDrain⟩ := id ok
  have hothers : (∀ x ∈ h.queue, x.slot ≠ d.slot) ∧ (∀ x ∈ h.executing, x.slot ≠ d.slot) ∧ d.slot ∉ h.order := by
    simp only [Handler.slotsHeld, List.nodup_append] at okNodup
    cases hex : h.executing <;> grind
  obtain ⟨hqueue, hexecuting, horder⟩ := hothers
  refine ok.of_set d.slot (.completed reply) rfl ?_ (fun j hj => ?_) ?_ (fun x hx => ?_) (fun x hx => ?_) (fun j hj => ?_)
    okQueue ?_
  · have hcount : ∀ i, ((h.table.filter fun x => x.slot != d.slot).map Deferred.slot).count i
        = if i = d.slot then 0 else (h.table.map Deferred.slot).count i := by
      intro i
      rw [show ((h.table.filter fun x => x.slot != d.slot).map Deferred.slot) =
        (h.table.map Deferred.slot).filter (fun k => k != d.slot) by rw [List.filter_map]; rfl]
      split
      · next hi => simp [hi, List.count_eq_zero]
      · next hi => rw [List.count_filter (by simpa using hi)]
    have hone : 1 ≤ (h.table.map Deferred.slot).count d.slot := List.one_le_count_iff.mpr (List.mem_map_of_mem hd)
    rw [Handler.slotsHeld_nodup_iff] at okNodup ⊢
    intro i
    have := okNodup i
    simp only [Handler.complete, Handler.dropEntry, Handler.setSlot, List.count_append, hcount] at this ⊢
    simp only [List.count_singleton]
    by_cases hi : i = d.slot
    · subst hi
      simp at this ⊢
      omega
    · simp [hi, Ne.symm hi] at this ⊢
      omega
  · simp only [Handler.mem_slotsHeld, Handler.complete, Handler.dropEntry, Handler.setSlot]
    simp [hj]
    grind
  · simp [Handler.mem_slotsHeld, Handler.complete, Handler.dropEntry, Handler.setSlot]
  · simp only [Handler.complete, Handler.dropEntry, Handler.setSlot, List.mem_append, Option.mem_toList] at hx
    refine .inl ⟨?_, by simpa using hx⟩
    rcases hx with hx | hx
    · exact hqueue x hx
    · exact hexecuting x hx
  · simp [Handler.complete, Handler.dropEntry, Handler.setSlot] at hx
    exact .inl ⟨hx.2, hx.1⟩
  · simp [Handler.complete, Handler.dropEntry] at hj
    rcases hj with hj | rfl
    · exact .inl ⟨fun e => horder (e ▸ hj), hj⟩
    · exact .inr ⟨rfl, rfl⟩
  · exact le_trans ((List.filter_sublist.filter _).length_le) okDrain

/-- A free slot is held by no one. -/
theorem Handler.Accounts.free_slot (ok : h.Accounts) {i : SlotNo} (hi : h.slots.get i = .free) : i ∉ h.slotsHeld :=
  (ok.2.1 i).mp hi

/-- R143: an acceptance into a free slot keeps the account. -/
theorem Handler.Accounts.accept (ok : h.Accounts) (hslot : h.slots.get r.slot = .free)
    (hroom : h.queue.length < Config.requestQueueSize) : (h.accept r).Accounts := by
  have hheld := ok.free_slot hslot
  obtain ⟨okNodup, -, -, -, -, -, okDrain⟩ := id ok
  have hcount : h.slotsHeld.count r.slot = 0 := List.count_eq_zero.mpr hheld
  rw [Handler.mem_slotsHeld] at hheld
  push Not at hheld
  obtain ⟨hqueue, hexecuting, htable, horder⟩ := hheld
  refine ok.of_set r.slot (.reserved r.tag r.code) rfl ?_ (fun j hj => ?_) ?_ (fun x hx => ?_) (fun d hd => ?_)
    (fun j hj => ?_) ?_ okDrain
  · rw [Handler.slotsHeld_nodup_iff] at okNodup ⊢
    intro i
    have := okNodup i
    simp only [Handler.accept, Handler.setSlot, List.map_append, List.count_append, List.map_cons, List.map_nil,
      List.count_singleton]
    simp only [Handler.slotsHeld, List.count_append] at hcount
    by_cases hi : r.slot = i
    · subst hi
      simp
      omega
    · simp [hi]
      omega
  · simp [Handler.mem_slotsHeld, Handler.accept, Handler.setSlot, Ne.symm hj, or_and_right, exists_or]
  · simp [Handler.mem_slotsHeld, Handler.accept, Handler.setSlot, or_and_right, exists_or]
  · simp only [Handler.accept, Handler.setSlot, List.mem_append, List.mem_singleton, Option.mem_toList] at hx
    rcases hx with (hx | rfl) | hx
    · exact .inl ⟨hqueue x hx, by simp [hx]⟩
    · exact .inr ⟨rfl, rfl⟩
    · exact .inl ⟨hexecuting x hx, by simpa using .inr hx⟩
  · exact .inl ⟨htable d hd, hd⟩
  · exact .inl ⟨fun e => horder (e ▸ hj), hj⟩
  · simp [Handler.accept, Handler.setSlot]
    omega

/-- R144: a reply completed at once in a free slot keeps the account. -/
theorem Handler.Accounts.complete_free (ok : h.Accounts) {i : SlotNo} (hslot : h.slots.get i = .free) :
    (h.complete i reply).Accounts := by
  have hheld := ok.free_slot hslot
  obtain ⟨okNodup, -, -, -, -, okQueue, okDrain⟩ := id ok
  have hcount : h.slotsHeld.count i = 0 := List.count_eq_zero.mpr hheld
  rw [Handler.mem_slotsHeld] at hheld
  push Not at hheld
  obtain ⟨hqueue, hexecuting, htable, horder⟩ := hheld
  refine ok.of_set i (.completed reply) rfl ?_ (fun j hj => ?_) ?_ (fun x hx => ?_) (fun d hd => ?_) (fun j hj => ?_) okQueue
    okDrain
  · rw [Handler.slotsHeld_nodup_iff] at okNodup ⊢
    intro k
    have := okNodup k
    simp only [Handler.complete, Handler.setSlot, List.count_append, List.count_singleton]
    simp only [Handler.slotsHeld, List.count_append] at hcount
    by_cases hk : i = k
    · subst hk
      simp
      omega
    · simp [hk]
      omega
  · simp [Handler.mem_slotsHeld, Handler.complete, Handler.setSlot, hj]
  · simp [Handler.mem_slotsHeld, Handler.complete, Handler.setSlot]
  · simp only [Handler.complete, Handler.setSlot, List.mem_append, Option.mem_toList] at hx
    refine .inl ⟨?_, by simpa using hx⟩
    rcases hx with hx | hx
    · exact hqueue x hx
    · exact hexecuting x hx
  · exact .inl ⟨htable d hd, hd⟩
  · simp [Handler.complete] at hj
    rcases hj with hj | rfl
    · exact .inl ⟨fun e => horder (e ▸ hj), hj⟩
    · exact .inr ⟨rfl, rfl⟩

/-- R147: a reply sent keeps the account. -/
theorem Handler.Accounts.sent (ok : h.Accounts) {i : SlotNo} (hi : i ∈ h.order) : (h.sent i).Accounts := by
  obtain ⟨okNodup, -, -, -, -, okQueue, okDrain⟩ := id ok
  have horder : h.order.Nodup := okNodup.sublist (List.sublist_append_right _ _)
  have hothers : (∀ x ∈ h.queue, x.slot ≠ i) ∧ (∀ x ∈ h.executing, x.slot ≠ i) ∧ ∀ d ∈ h.table, d.slot ≠ i := by
    simp only [Handler.slotsHeld, List.nodup_append] at okNodup
    cases hex : h.executing <;> grind
  obtain ⟨hqueue, hexecuting, htable⟩ := hothers
  refine ok.of_set i .free rfl ?_ (fun j hj => ?_) ?_ (fun x hx => ?_) (fun d hd => ?_) (fun j hj => ?_) okQueue okDrain
  · exact okNodup.sublist ((List.Sublist.refl _).append (List.erase_sublist))
  · simp [Handler.mem_slotsHeld, Handler.sent, Handler.setSlot, horder.mem_erase_iff, hj]
  · simp [Handler.mem_slotsHeld, Handler.sent, Handler.setSlot, horder.mem_erase_iff]
    exact ⟨hqueue, hexecuting, htable⟩
  · simp only [Handler.sent, Handler.setSlot, List.mem_append, Option.mem_toList] at hx
    refine .inl ⟨?_, by simpa using hx⟩
    rcases hx with hx | hx
    · exact hqueue x hx
    · exact hexecuting x hx
  · exact .inl ⟨htable d hd, hd⟩
  · exact .inl (horder.mem_erase_iff.mp hj)

end

/-- R142: the handler after a reset. -/
theorem Handler.reset_accounts : Handler.reset.Accounts := by
  refine ⟨by decide, by decide, ?_, ?_, ?_, by decide, by decide⟩ <;> simp [Handler.reset]

end Sys2Proof.Machine

/-!
PROOF. The tally units (5.4), the receiver of frames (7.3) and the receiver of characters (7.1) in their own terms: each operation
keeps the account of its unit.
-/

namespace Sys2Proof.Machine

/-! ## Tally units -/

theorem raise32_fits {n : Nat} (h : n ≤ 4294967295) : raise32 n ≤ 4294967295 := by
  unfold raise32
  split <;> omega

theorem raise32_le (n : Nat) : raise32 n ≤ n + 1 := by
  unfold raise32
  split <;> omega

/-- R102 to R104: an increment keeps the account of its unit. -/
theorem TallyUnit.Fits.increment {t : TallyUnit} (h : t.Fits) : t.increment.1.Fits := by
  obtain ⟨htimer, hbelow, hcount, hthreshold⟩ := h
  have hraised := raise32_fits hcount
  have hstep := raise32_le t.count
  unfold TallyUnit.increment
  split
  · exact ⟨htimer, hbelow, hcount, hthreshold⟩
  · next hm =>
    have hlt := hbelow (.inl hm)
    split
    · exact ⟨by simpa [hm] using htimer, by simp, hraised, hthreshold⟩
    · exact ⟨by simpa [hm] using htimer, fun _ => by dsimp only; omega, hraised, hthreshold⟩
  · next hm =>
    have hlt := hbelow (.inr hm)
    split
    · exact ⟨by simpa [hm] using htimer, fun _ => by dsimp only; omega, by simp, hthreshold⟩
    · exact ⟨by simpa [hm] using htimer, fun _ => by dsimp only; omega, hraised, hthreshold⟩
  · next hm => exact ⟨by simpa [hm] using htimer, by simp [hm], hraised, hthreshold⟩

/-- R88: a formed record gives at most one unit its increment. -/
theorem Reports.form_tallies (stamp : Word32) (b : RecordBody) (r : Reports) (u : UnitNo) :
    (r.form stamp b).tallies.get u = r.tallies.get u ∨ (r.form stamp b).tallies.get u = (r.tallies.get u).increment.1 := by
  have one : ∀ (v : UnitNo) (x : Reports), (x.tallyOne stamp v).tallies.get u = x.tallies.get u
      ∨ (x.tallyOne stamp v).tallies.get u = (x.tallies.get u).increment.1 := by
    intro v x
    by_cases h : v = u
    · subst h
      exact .inr (vector_get_set _ _ _)
    · exact .inl (vector_get_set_ne _ _ _ _ h)
  unfold Reports.form
  split
  · exact .inl rfl
  · dsimp only
    split <;> split
    · exact .inl rfl
    · exact .inl rfl
    · exact one _ { r with queue := _ }
    · exact one _ _

/-- R107: a unit as CONFIGURE_TALLY leaves it. -/
theorem configuredTally_fits {mode : TallyMode} {threshold window stop : Nat} (h : tallyFits mode threshold window = true)
    (ht : threshold ≤ 4294967295) : (configuredTally mode threshold window stop).Fits := by
  cases mode <;> simp [tallyFits] at h <;> simp [configuredTally, TallyUnit.Fits, ht] <;> omega

/-! ## The receiver of frames (R128) -/

theorem raise16_fits {n : Nat} (h : n ≤ 65535) : raise16 n ≤ 65535 := by
  unfold raise16
  split <;> omega

/-- R128: the receiver back in HUNT. -/
theorem Receiver.Fits.toHunt {x : Receiver} (h : x.Fits) : x.toHunt.Fits := by
  obtain ⟨-, -, -, -, -, h6⟩ := h
  simp [Receiver.Fits, Receiver.toHunt, h6]

/-- R132: a discarded frame counted. -/
theorem Receiver.Fits.discarded {x : Receiver} (h : x.Fits) : Receiver.Fits { x with discarded := raise16 x.discarded } := by
  obtain ⟨h1, h2, h3, h4, h5, h6⟩ := h
  exact ⟨h1, h2, h3, h4, h5, raise16_fits h6⟩

/-- R128: no byte taken moves the break flag. -/
theorem Receiver.take_broken (x : Receiver) (now : Nat) (b : Byte) : (x.take now b).1.broken = x.broken := by
  unfold Receiver.take
  split
  · split <;> rfl
  · split <;> rfl
  · rfl
  · split
    · rfl
    · split <;> rfl

/-- R128: a byte taken keeps the receiver in order, when no break is on. -/
theorem Receiver.Fits.take {x : Receiver} (h : x.Fits) (hb : x.broken = false) (now : Nat) (b : Byte) :
    (x.take now b).1.Fits := by
  obtain ⟨-, -, -, hbody, hcheck, hcount⟩ := id h
  unfold Receiver.take
  split
  · split
    · simp [Receiver.Fits, Receiver.hold, hb, hcount]
    · exact h
  · split
    · next hl =>
      have : 1 ≤ b.toNat := by simp [lenInRange] at hl; omega
      simp [Receiver.Fits, Receiver.hold, hb, hcount, hl, Receiver.len, this]
    · exact h.toHunt
  · next hs =>
    obtain ⟨hne, hlen, hle⟩ := hbody hs
    obtain ⟨len, rest, hheld⟩ := List.exists_cons_of_ne_nil hne
    simp only [hheld, Receiver.len, List.headD_cons, List.length_cons] at hlen hle
    simp only [Receiver.Fits, Receiver.hold, hheld, Receiver.len]
    by_cases he : rest.length + 1 = len.toNat <;> simp [he, hb, hcount, hlen]
    omega
  · next hs =>
    obtain ⟨hlen, hheld⟩ := hcheck hs
    split
    · next he =>
      obtain ⟨len, rest, hl⟩ : ∃ len rest, x.held = len :: rest := List.exists_cons_of_length_pos (by omega)
      simp only [hl, Receiver.len, List.headD_cons, List.length_cons] at hlen he
      simp [Receiver.Fits, Receiver.hold, hl, Receiver.len, hb, hcount, hlen, he]
    · split <;> exact h.toHunt

/-! ## The receiver of characters (R125) -/

/-- The account of the receiver of characters at a later moment. -/
theorem LineReceiver.Fits.later {broken : Bool} {now later : Nat} {x : LineReceiver} (h : x.Fits broken now)
    (hle : now ≤ later) : x.Fits broken later := by
  obtain ⟨h1, h2, h3, h4, h5⟩ := h
  exact ⟨h1, h2, fun l hl => (h3 l hl).trans hle, fun c hc => ⟨(h4 c hc).1.trans hle, (h4 c hc).2⟩,
    fun d hd => (h5 d hd).trans hle⟩

/-- Without a character the account of the receiver of characters is that of its level. -/
theorem LineReceiver.fits_of_no_char {broken : Bool} {now : Nat} {x : LineReceiver} (hchar : x.char = none)
    (hdue : x.due = none) (hlevel : ∀ l ∈ x.level, l.2 ≤ now) : x.Fits broken now :=
  ⟨fun _ => ⟨hchar, hdue⟩, fun _ => ⟨hchar, hdue⟩, hlevel, by simp [hchar], by simp [hdue]⟩

/-- The character due handed on. -/
theorem LineReceiver.Fits.dropDue {broken : Bool} {now : Nat} {x : LineReceiver} (h : x.Fits broken now) :
    LineReceiver.Fits broken now { x with due := none } := by
  obtain ⟨h1, h2, h3, h4, -⟩ := h
  exact ⟨fun e => ⟨(h1 e).1, rfl⟩, fun e => ⟨(h2 e).1, rfl⟩, h3, h4, by simp⟩

/-- R125: the level that RXD shows was reached by now. -/
theorem LineReceiver.Fits.reach {broken : Bool} {now : Nat} {x : LineReceiver} (h : x.Fits broken now) (v : Bool) :
    (x.reach now v).2 ≤ now := by
  obtain ⟨-, -, h3, -⟩ := h
  unfold LineReceiver.reach
  split
  · exact Nat.le_refl _
  · next l since hl =>
    split
    · exact h3 _ hl
    · exact Nat.le_refl _

/-- R125: a level at RXD keeps the account of the receiver of characters. -/
theorem LineReceiver.Fits.follow {broken : Bool} {now : Nat} {x : LineReceiver} (h : x.Fits broken now) (bit : Nat)
    (v : Bool) : (x.follow broken bit now v).Fits broken now := by
  have hreach := h.reach v
  obtain ⟨-, h2, -, h4, h5⟩ := h
  have hlevel : ∀ l ∈ some (x.reach now v), l.2 ≤ now := by simpa using hreach
  rcases x.follow_cases broken bit now v with e | ⟨hb, hc, -, -, e⟩ | ⟨c, hb, hc, hm, hcase⟩
  · rw [e]
    exact ⟨by simp, h2, hlevel, h4, h5⟩
  · rw [e]
    exact ⟨by simp, by simp [hb], hlevel, by simp, h5⟩
  · obtain ⟨hedge, -, hhead⟩ := h4 c hc
    rcases hcase with ⟨-, -, e⟩ | ⟨hlen, e⟩ | ⟨d, e⟩
    · rw [e]
      exact ⟨by simp, by simp [hb], hlevel, by simp, h5⟩
    · rw [LineReceiver.follow, if_neg (by simp [hb])] at e ⊢
      simp only [hc, hm, if_true, LineReceiver.sampleBit] at e ⊢
      split
      · exact ⟨by simp, by simp [hb], hlevel, by simp, h5⟩
      · next hnoise =>
        refine ⟨by simp, by simp [hb], hlevel, ?_, h5⟩
        intro c' hc'
        obtain rfl : _ = c' := by simpa using hc'
        refine ⟨hedge, by simp; omega, ?_⟩
        cases hs : c.samples with
        | nil => simpa [hs] using hnoise
        | cons y ys => simpa [hs] using hhead
    · rw [e]
      exact ⟨by simp, by simp [hb], hlevel, by simp, by simpa using hedge⟩

/-- A clock period at RXD keeps the account of the receiver of characters. -/
theorem LineReceiver.Fits.hear {broken : Bool} {now : Nat} {x : LineReceiver} (h : x.Fits broken now) (bit : Nat)
    (rxd : Option Bool) : (x.hear broken bit now rxd).Fits broken now := by
  unfold LineReceiver.hear
  split
  · exact h.follow bit _
  · exact h.follow bit _
  · exact h

end Sys2Proof.Machine

/-!
PROOF. The axis and the marks on its list in their own terms (chapters 2 and 3): each change of an axis keeps the account of that
axis, and each change of a list keeps the account of its marks.
-/

namespace Sys2Proof.Machine

/-! ## Positions and turns -/

theorem positionInRange_iff {m : Nat} {x : Int} : positionInRange m x = true ↔ m = 0 ∨ (0 ≤ x ∧ x < m) := by
  simp [positionInRange]

/-- A field of four bytes is a signed 32-bit value. -/
theorem argInt_inInt32 (l : List Byte) (i : Nat) : InInt32 (argInt l i) := by
  have h1 := (arg32 l i).le_toInt
  have h2 := (arg32 l i).toInt_lt
  simp only [argInt]
  constructor <;> norm_num at h1 h2 <;> omega

/-- A position read from a request and found in range. -/
theorem positionFits_of_inRange {m : Nat} {x : Int} (h : positionInRange m x = true) (hx : InInt32 x) : PositionFits m x := by
  rw [positionInRange_iff] at h
  exact ⟨fun _ => hx, fun hm => h.resolve_left hm⟩

theorem nextUp_inInt32 {x : Int} (h : InInt32 x) : InInt32 (nextUp x) := by
  unfold nextUp
  split <;> constructor <;> omega

theorem nextDown_inInt32 {x : Int} (h : InInt32 x) : InInt32 (nextDown x) := by
  unfold nextDown
  split <;> constructor <;> omega

/-- R24: a step keeps position and turns in their ranges. -/
theorem moveOne_fits {m : Nat} {p t : Int} (d : Direction) (hp : PositionFits m p) (ht : InInt32 t) (h0 : m = 0 → t = 0) :
    PositionFits m (moveOne m d p t).1 ∧ InInt32 (moveOne m d p t).2 ∧ (m = 0 → (moveOne m d p t).2 = 0) := by
  rw [moveOne_eq d hp ht]
  by_cases hm : m = 0
  · have hx := hp.1 hm
    rw [if_pos hm]
    refine ⟨⟨fun _ => ?_, fun hne => absurd hm hne⟩, ht, h0⟩
    dsimp only
    split
    · exact nextUp_inInt32 hx
    · exact nextDown_inInt32 hx
  · have hx := hp.2 hm
    have hup := nextUp_inInt32 ht
    have hdown := nextDown_inInt32 ht
    rw [if_neg hm]
    split <;> split <;> refine ⟨⟨fun e => absurd e hm, fun _ => ?_⟩, ?_, fun e => absurd e hm⟩ <;> omega

/-- R36: the turns after a correction. -/
theorem correctedTurns_inInt32 {m : Nat} {p r t : Int} (h : InInt32 t) : InInt32 (correctedTurns m p r t) := by
  unfold correctedTurns
  split
  · exact wrap32_inInt32 _
  · split
    · exact wrap32_inInt32 _
    · exact h

/-! ## The account of one axis -/

section
variable {x : Axis}

/-- An axis changed in nothing that its account reads. -/
theorem Axis.Fits.congr {y : Axis} (h : x.Fits) (hconfig : y.config = x.config) (hposition : y.position = x.position)
    (hturns : y.turns = x.turns) (hgate : y.gateTimer = x.gateTimer) (hspeed : y.lastSpeed = x.lastSpeed) (hnet : y.net = x.net)
    (hstate : y.state = x.state) (hhoming : y.homing = x.homing) : y.Fits := by
  unfold Axis.Fits
  rw [hconfig, hposition, hturns, hgate, hspeed, hnet, hstate, hhoming]
  exact h

/-- R24: a step of an axis that counts. -/
theorem Axis.Fits.stepped1 (h : x.Fits) (hs : x.state.counts = true) (d : Direction) (inferred : Bool) :
    (x.stepped1 d inferred).Fits := by
  obtain ⟨hconfig, hposition, hturns, hlinear, hgate, -, hhoming, hmode⟩ := h
  obtain ⟨hp, ht, h0⟩ := moveOne_fits d hposition hturns hlinear
  exact ⟨hconfig, hp, ht, h0, hgate, fun hc => absurd hs (by simp [show x.state.counts = false from hc]),
    by simpa [Axis.stepped1] using hhoming, hmode⟩

/-- R29, R32, R36: a jump of position and turns. -/
theorem Axis.Fits.jump (h : x.Fits) {p t : Int} (hp : PositionFits x.config.modulus p) (ht : InInt32 t)
    (h0 : x.config.modulus = 0 → t = 0) : Axis.Fits { x with position := p, turns := t } := by
  obtain ⟨hconfig, -, -, -, hgate, hidle, hhoming, hmode⟩ := h
  exact ⟨hconfig, hp, ht, h0, hgate, hidle, hhoming, hmode⟩

/-- R20: a change between states that count, into one other than SEEKING. -/
theorem Axis.Fits.counting (h : x.Fits) {new : AxisState} (hx : x.state.counts = true) (hnew : new.counts = true)
    (hseek : new ≠ .seeking) : Axis.Fits { x with state := new, homing := none } := by
  obtain ⟨hconfig, hposition, hturns, hlinear, hgate, -, -, -⟩ := h
  exact ⟨hconfig, hposition, hturns, hlinear, by simpa [hx, hnew] using hgate, by simp [hnew], by simp [hseek],
    fun e => absurd e hseek⟩

/-- R30: a HOME starts on a QUAD_INDEX axis that counts. -/
theorem Axis.Fits.home (h : x.Fits) (hx : x.state.counts = true) (hm : x.config.mode = .quadIndex) (ctx : Homing) :
    Axis.Fits { x with state := .seeking, homing := some ctx } := by
  obtain ⟨hconfig, hposition, hturns, hlinear, hgate, -, -, -⟩ := h
  exact ⟨hconfig, hposition, hturns, hlinear, hgate.trans (iff_of_true hx rfl), by simp [AxisState.counts],
    by simp, fun _ => hm⟩

/-- R20, R28, R37: an axis that stops counting, with its speed gate. -/
theorem Axis.Fits.stop (h : x.Fits) {new : AxisState} (hnew : new.counts = false)
    (fault : Option (FaultKind × Word32)) :
    Axis.Fits { x with
      lastFault := fault, state := new, homing := none, gateTimer := none, net := 0, lastSpeed := 0 } := by
  obtain ⟨hconfig, hposition, hturns, hlinear, -, -, -, -⟩ := h
  have hseek : new ≠ .seeking := fun e => by simp [e, AxisState.counts] at hnew
  exact ⟨hconfig, hposition, hturns, hlinear, by simp [hnew], by simp, by simp [hseek], fun e => absurd e hseek⟩

/-- R27, R39: an axis that starts to count, with its speed gate. -/
theorem Axis.Fits.free (h : x.Fits) {p t : Int} (hp : PositionFits x.config.modulus p) (ht : InInt32 t)
    (h0 : x.config.modulus = 0 → t = 0) (hhoming : x.homing = none) (fault : Option (FaultKind × Word32)) (stop : Nat) :
    Axis.Fits { x with
      lastFault := fault, state := .free, position := p, turns := t, gateTimer := some stop, net := 0 } := by
  obtain ⟨hconfig, -⟩ := h
  exact ⟨hconfig, hp, ht, h0, by simp [AxisState.counts], by simp [AxisState.counts], by simp [hhoming], by simp⟩

/-- No axis but a SEEKING one has a homing context. -/
theorem Axis.Fits.homing_none (h : x.Fits) (hs : x.state ≠ .seeking) : x.homing = none := by
  obtain ⟨-, -, -, -, -, -, hhoming, -⟩ := h
  exact Option.not_isSome_iff_eq_none.mp (mt hhoming.mp hs)

/-- An axis with a homing context is SEEKING. -/
theorem Axis.Fits.seeking (h : x.Fits) {ctx : Homing} (hh : x.homing = some ctx) : x.state = .seeking := by
  obtain ⟨-, -, -, -, -, -, hhoming, -⟩ := h
  exact hhoming.mp (by simp [hh])

/-- R40: a gate expires and the next follows. -/
theorem Axis.Fits.gate (h : x.Fits) {t stop : Nat} (hx : x.gateTimer = some t) (speed : Int) :
    Axis.Fits { x with lastSpeed := speed, net := 0, gateTimer := some stop } := by
  obtain ⟨hconfig, hposition, hturns, hlinear, hgate, hidle, hhoming, hmode⟩ := h
  have hcounts : x.state.counts = true := hgate.mp (by simp [hx])
  exact ⟨hconfig, hposition, hturns, hlinear, by simp [hcounts], by simp [hcounts], hhoming, hmode⟩

/-- R22: a DISABLED axis takes a configuration whose fields are in their ranges. -/
theorem Axis.Fits.configured (h : x.Fits) (hs : x.state = .disabled) {c : AxisConfig} (hc : c.Fits) : (x.configured c).Fits := by
  have hnone := h.homing_none (by simp [hs])
  obtain ⟨-, hposition, hturns, hlinear, hgate, hidle, -, -⟩ := h
  unfold Axis.configured
  split
  · next hm =>
    exact ⟨hc, hm ▸ hposition, hturns, hm ▸ hlinear, hgate, hidle, by simp [hnone, hs], by simp [hs]⟩
  · obtain ⟨-, hmod, -⟩ := id hc
    have hzero : InInt32 0 := by decide
    exact ⟨hc, ⟨fun _ => hzero, fun hne => ⟨le_refl _, by dsimp only at hne ⊢; omega⟩⟩, hzero, fun _ => rfl, hgate, hidle,
      by simp [hnone, hs], by simp [hs]⟩

end

/-! ## CONFIGURE_AXIS (R22) -/

/-- R22, R174: a configuration that is read has every field in its range. -/
theorem axisConfigOf_fits {l : List Byte} {c : AxisConfig} (h : axisConfigOf l = some c) : c.Fits := by
  unfold axisConfigOf at h
  split at h
  · dsimp only at h
    split at h
    · next hfits =>
      obtain ⟨hdepth, hmod, hoff, htravel, hgate⟩ := hfits
      obtain rfl := Option.some.inj h
      have h16 := (arg16 l 20).isLt
      have h8 := (arg8 l 10).isLt
      refine ⟨hdepth, hmod, by dsimp only; omega, positionFits_of_inRange hoff (argInt_inInt32 _ _), ?_, ?_, hgate⟩
      all_goals
        intro k hk
        simp only [limitOf, Option.mem_def] at hk
        split at hk
        · cases hk
        · obtain rfl := Option.some.inj hk
          omega
    · cases h
  · cases h

/-! ## The marks of one list -/

/-- A mark entered into an ordered list leaves it ordered (R43). -/
theorem insertMark_sorted {l : List Mark} (h : l.Pairwise fun x y => x.position ≤ y.position) (m : Mark) :
    (insertMark m l).Pairwise fun x y => x.position ≤ y.position := by
  induction l with
  | nil => simp [insertMark]
  | cons x xs ih =>
    obtain ⟨hx, hxs⟩ := List.pairwise_cons.mp h
    unfold insertMark
    split
    · next hle =>
      refine List.pairwise_cons.mpr ⟨fun y hy => ?_, ih hxs⟩
      obtain ⟨l1, l2, he, hi, -⟩ := insertMark_split m xs
      rw [hi] at hy
      simp only [List.mem_append, List.mem_cons] at hy
      rcases hy with hy | rfl | hy
      · exact hx y (by simp [he, hy])
      · exact hle
      · exact hx y (by simp [he, hy])
    · next hlt =>
      refine List.pairwise_cons.mpr ⟨fun y hy => ?_, h⟩
      rcases List.mem_cons.mp hy with rfl | hy
      · omega
      · have := hx y hy
        omega

/-- The marks of a list that one has entered. -/
theorem mem_insertMark {m k : Mark} {l : List Mark} : k ∈ insertMark m l ↔ k = m ∨ k ∈ l := by
  obtain ⟨l1, l2, rfl, h, -⟩ := insertMark_split m l
  simp [h, or_left_comm]

/-- R46: marks enter one after another. -/
@[simp] theorem insertMarks_nil (l : List Mark) : insertMarks [] l = l := rfl
@[simp] theorem insertMarks_cons (m : Mark) (ms l : List Mark) :
    insertMarks (m :: ms) l = insertMarks ms (insertMark m l) := rfl

@[simp] theorem insertMarks_length (ms l : List Mark) : (insertMarks ms l).length = l.length + ms.length := by
  induction ms generalizing l with
  | nil => rfl
  | cons m ms ih => simp [ih]; omega

theorem insertMarks_sorted (ms : List Mark) {l : List Mark} (h : l.Pairwise fun x y => x.position ≤ y.position) :
    (insertMarks ms l).Pairwise fun x y => x.position ≤ y.position := by
  induction ms generalizing l with
  | nil => exact h
  | cons m ms ih => exact ih (insertMark_sorted h m)

theorem mem_insertMarks {k : Mark} {ms l : List Mark} : k ∈ insertMarks ms l ↔ k ∈ ms ∨ k ∈ l := by
  induction ms generalizing l with
  | nil => simp
  | cons m ms ih => simp [ih, mem_insertMark, or_assoc, or_left_comm]

/-- A mark that leaves its place leaves the others in theirs. -/
theorem removeNthAt_sublist (p : Int) (n : Nat) (l : List Mark) : (removeNthAt p n l).Sublist l := by
  induction l generalizing n with
  | nil => cases n <;> exact List.Sublist.refl _
  | cons x xs ih =>
    cases n <;> simp only [removeNthAt] <;> split
    · exact List.sublist_cons_self x xs
    all_goals exact (ih _).cons_cons x

/-- A mark that stands at a place at the position leaves it. -/
theorem removeNthAt_length {p : Int} {n : Nat} {l : List Mark} (h : n < (marksAt p l).length) :
    (removeNthAt p n l).length + 1 = l.length := by
  induction l generalizing n with
  | nil => simp [marksAt] at h
  | cons x xs ih =>
    by_cases hx : x.position = p
    · cases n with
      | zero => simp [removeNthAt, hx]
      | succ n =>
        have : n < (marksAt p xs).length := by simpa [marksAt, hx] using h
        simp [removeNthAt, hx, ih this]
    · have : n < (marksAt p xs).length := by simpa [marksAt, hx] using h
      cases n <;> simp [removeNthAt, hx, ih this]

/-- R55: a mark that fires again is one that can stand on the list. -/
theorem Mark.Fits.afterFiring {m : Nat} {k k' : Mark} (h : k.Fits m) (hk : k.afterFiring m = some k') : k'.Fits m := by
  obtain ⟨-, hcount, hpitch, hp, hact, hset⟩ := h
  unfold Mark.afterFiring at hk
  dsimp only at hk
  split at hk
  · next he =>
    obtain rfl := Option.some.inj hk
    exact ⟨reducePosition_fits m _, by simp [he], hpitch, hp, hact, hset⟩
  · next n he =>
    split at hk
    · cases hk
    · next hn =>
      obtain rfl := Option.some.inj hk
      obtain ⟨h1, h2⟩ := hcount n he
      have hsome : k.pitch ≠ none := fun hnone => by
        have := hpitch hnone
        rw [he, Firings.counted.injEq] at this
        omega
      refine ⟨reducePosition_fits m _, fun j hj => ?_, fun hnone => absurd hnone hsome, hp, hact, hset⟩
      simp only [Firings.counted.injEq] at hj
      omega

/-- R57: a release moves no mark and makes none invalid. -/
theorem mem_armMatching {tag mask : Word16} {l : List Mark} {k : Mark} (h : k ∈ armMatching tag mask l) :
    ∃ j ∈ l, k = j ∨ k = { j with armed := true } := by
  obtain ⟨j, hj, rfl⟩ := List.mem_map.mp h
  refine ⟨j, hj, ?_⟩
  split <;> simp

theorem armMatching_sorted {tag mask : Word16} {l : List Mark} (h : l.Pairwise fun x y => x.position ≤ y.position) :
    (armMatching tag mask l).Pairwise fun x y => x.position ≤ y.position := by
  refine List.pairwise_map.mpr (h.imp fun {x y} hxy => ?_)
  split <;> split <;> exact hxy

/-! ## The marks of the four lists -/

/-- A list after another has been replaced. -/
theorem State.markList_setMarkList_eq (s : State) (a b : AxisNo) (l : List Mark) :
    (s.setMarkList a l).markList b = if a = b then l else s.markList b := by
  split
  · next h => rw [← h, State.markList_setMarkList]
  · next h => exact s.markList_setMarkList_ne l h

/-- An axis after another has been replaced. -/
theorem State.axis_setAxis_eq (s : State) (a b : AxisNo) (x : Axis) :
    (s.setAxis a x).axis b = if a = b then x else s.axis b := by
  split
  · next h => rw [← h, State.axis_setAxis]
  · next h => exact s.axis_setAxis_ne x h

/-- R42: the marks on the four lists, after one of them has been replaced. -/
theorem State.sum_markList_setMarkList (s : State) (a : AxisNo) (l : List Mark) :
    (allAxes.map fun b => ((s.setMarkList a l).markList b).length).sum + (s.markList a).length =
      (allAxes.map fun b => (s.markList b).length).sum + l.length := by
  simp only [s.markList_setMarkList_eq, allAxes]
  fin_cases a <;> simp <;> omega

/-- R42 to R45: a list replaced by an ordered one of valid marks for which the pool has room. -/
theorem MarksOk.setMarkList {s : State} (h : MarksOk s) (a : AxisNo) {l : List Mark}
    (hlen : l.length ≤ (s.markList a).length + s.freeCount) (hsorted : l.Pairwise fun x y => x.position ≤ y.position)
    (hfits : ∀ k ∈ l, k.Fits (s.axis a).config.modulus) : MarksOk (s.setMarkList a l) := by
  obtain ⟨hsum, hlists⟩ := h
  refine ⟨?_, fun b => ?_⟩
  · have := s.sum_markList_setMarkList a l
    simp only [State.freeCount] at hlen
    omega
  · rw [s.markList_setMarkList_eq]
    split
    · next hab => exact hab ▸ ⟨hsorted, hfits⟩
    · exact hlists b

/-- The account of the marks reads the lists and the moduli alone. -/
theorem MarksOk.congr {s t : State} (h : MarksOk s) (hlist : ∀ a, t.markList a = s.markList a)
    (hmod : ∀ a, (t.axis a).config.modulus = (s.axis a).config.modulus ∨ s.markList a = []) : MarksOk t := by
  obtain ⟨hsum, hlists⟩ := h
  refine ⟨by simpa only [hlist] using hsum, fun a => ?_⟩
  obtain ⟨hsorted, hfits⟩ := hlists a
  rw [hlist]
  refine ⟨hsorted, fun k hk => ?_⟩
  rcases hmod a with e | e
  · exact e ▸ hfits k hk
  · simp [e] at hk

end Sys2Proof.Machine

/-!
PROOF. The account of the requests over a whole state (chapter 8, R30 to R34): the handler with its slots, the reply frame in
progress, and the axes on which a HOME stands deferred.
-/

namespace Sys2Proof.Machine

/-- The slot of the HOME under way on an axis. -/
def Axis.homingSlot (x : Axis) : Option SlotNo := x.homing.map Homing.slot

/-- The account of the requests, with the deferred HOMEs and the homing contexts matched by their slots. -/
theorem requestsOk_iff {s : State} :
    RequestsOk s ↔ s.handler.Accounts
      ∧ (∀ f ∈ s.tx.frame, ∀ i, f.source = .reply i → i ∈ s.handler.order)
      ∧ (∀ a, (s.axis a).homing.isSome ↔ (s.axis a).state = .seeking)
      ∧ ∀ a i, (s.axis a).homingSlot = some i ↔ ∃ d ∈ s.handler.table, d.kind = .home a ∧ d.slot = i := by
  have slots : (∀ a, ∀ h ∈ (s.axis a).homing, ∃ d ∈ s.handler.table, d.kind = .home a ∧ d.slot = h.slot)
        ∧ (∀ d ∈ s.handler.table, ∀ a, d.kind = .home a → ∃ h ∈ (s.axis a).homing, h.slot = d.slot)
      ↔ ∀ a i, (s.axis a).homingSlot = some i ↔ ∃ d ∈ s.handler.table, d.kind = .home a ∧ d.slot = i := by
    simp only [Axis.homingSlot, Option.map_eq_some_iff]
    constructor
    · rintro ⟨h1, h2⟩ a i
      constructor
      · rintro ⟨h, hh, rfl⟩
        exact h1 a h hh
      · rintro ⟨d, hd, hk, rfl⟩
        exact h2 d hd a hk
    · intro h
      exact ⟨fun a x hx => (h a x.slot).mp ⟨x, hx, rfl⟩, fun d hd a hk => (h a d.slot).mpr ⟨d, hd, hk, rfl⟩⟩
  simp only [RequestsOk, ← slots]

section
variable {s t : State} {a : AxisNo} {y : Axis}

/-- The account of the requests reads the handler, the frame in progress, and of each axis its state and its homing slot. -/
theorem RequestsOk.congr (h : RequestsOk s) (hhandler : t.handler = s.handler) (hframe : t.tx.frame = s.tx.frame)
    (haxis : ∀ a, ((t.axis a).homingSlot = (s.axis a).homingSlot)
      ∧ ((t.axis a).state = .seeking ↔ (s.axis a).state = .seeking)) : RequestsOk t := by
  rw [requestsOk_iff] at h ⊢
  obtain ⟨h1, h2, h3, h4⟩ := h
  have some_iff : ∀ a, (t.axis a).homing.isSome = (s.axis a).homing.isSome := fun a => by
    simpa [Axis.homingSlot] using congrArg Option.isSome (haxis a).1
  refine ⟨hhandler ▸ h1, ?_, fun a => ?_, fun a i => ?_⟩
  · rw [hframe, hhandler]
    exact h2
  · rw [some_iff, (haxis a).2]
    exact h3 a
  · rw [(haxis a).1, hhandler]
    exact h4 a i

/-- An axis replaced by one that is SEEKING under the same slot or, as it was, not SEEKING. -/
theorem RequestsOk.setAxis (h : RequestsOk s) (hslot : y.homingSlot = (s.axis a).homingSlot)
    (hstate : y.state = .seeking ↔ (s.axis a).state = .seeking) : RequestsOk (s.setAxis a y) := by
  refine h.congr rfl rfl fun b => ?_
  rw [s.axis_setAxis_eq]
  split
  · next hab => exact hab ▸ ⟨hslot, hstate⟩
  · exact ⟨rfl, Iff.rfl⟩

/-- The handler replaced by one that keeps the completed replies and the deferred HOMEs. -/
theorem RequestsOk.setHandler {k : Handler} (h : RequestsOk s) (hk : k.Accounts) (horder : ∀ i ∈ s.handler.order, i ∈ k.order)
    (htable : ∀ d a, d.kind = .home a → (d ∈ k.table ↔ d ∈ s.handler.table)) : RequestsOk (s.setHandler k) := by
  rw [requestsOk_iff] at h ⊢
  obtain ⟨-, h2, h3, h4⟩ := h
  refine ⟨hk, fun f hf i hi => horder i (h2 f hf i hi), h3, fun a i => (h4 a i).trans ?_⟩
  exact exists_congr fun d => and_congr_left fun hd => (htable d a hd.1).symm

/-- R145: the start of the next request. -/
theorem RequestsOk.startNext (h : RequestsOk s) : RequestsOk (s.setHandler s.handler.startNext) := by
  obtain ⟨ok, -⟩ := requestsOk_iff.mp h
  exact h.setHandler ok.startNext (by simp) (by simp)

/-- R147: an answer to the executing request. -/
theorem RequestsOk.answer {r : Request} (h : RequestsOk s) (hex : s.handler.executing = some r) (st : Status) (l : List Byte) :
    RequestsOk (answer r st l s) := by
  obtain ⟨ok, -⟩ := requestsOk_iff.mp h
  rw [answer_eq]
  exact h.setHandler (ok.answer hex) (fun i hi => List.mem_append_left _ hi) fun _ _ _ => Iff.rfl

/-- R149: the deferred DRAIN ends. -/
theorem RequestsOk.endDrain (h : RequestsOk s) (st : Status) : RequestsOk (endDrain st s) := by
  unfold Machine.endDrain
  split
  · exact h
  next d hd =>
  obtain ⟨ok, -⟩ := requestsOk_iff.mp h
  have hmem : d ∈ s.handler.table := List.mem_of_find?_eq_some hd
  have hdrain : d.isDrain = true := List.find?_some hd
  rcases endDeferred_handler d.slot st [s.queueCountByte] s with ⟨-, e⟩ | ⟨d', hd', e⟩ <;> rw [e]
  · exact h
  obtain rfl : d' = d :=
    ok.table_slot_inj (List.mem_of_find?_eq_some hd') hmem (by simpa using List.find?_some hd')
  refine h.setHandler (ok.end_deferred hmem) (fun i hi => List.mem_append_left _ hi) fun x b hx => ?_
  have hne : x ∈ s.handler.table → x.slot ≠ d'.slot := fun hxm hslot => by
    obtain rfl := ok.table_slot_inj hxm hmem hslot
    simp [Deferred.isDrain, hx] at hdrain
  simp only [Handler.complete_table, Handler.dropEntry_table, List.mem_filter]
  exact ⟨fun hxm => hxm.1, fun hxm => ⟨hxm, by simpa using hne hxm⟩⟩

/-- R31 to R34, R149: an axis leaves SEEKING and the HOME under way on it ends, whatever else of the state has changed. -/
theorem RequestsOk.endHome (h : RequestsOk s) {i : SlotNo} (hslot : (s.axis a).homingSlot = some i) (hnone : y.homing = none)
    (hstate : y.state ≠ .seeking) (haxes : t.axes = (s.setAxis a y).axes) (hhandler : t.handler = s.handler)
    (hframe : t.tx.frame = s.tx.frame) (st : Status) (l : List Byte) : RequestsOk (endDeferred i st l t) := by
  obtain ⟨ok, h2, h3, h4⟩ := requestsOk_iff.mp h
  obtain ⟨d, hd, hkind, rfl⟩ := (h4 a i).mp hslot
  have haxis : ∀ b, t.axis b = if a = b then y else s.axis b := fun b => by
    rw [← s.axis_setAxis_eq]
    exact congrArg (fun v => v.get b) haxes
  rcases endDeferred_handler d.slot st l t with ⟨hno, -⟩ | ⟨d', hd', e⟩
  · exact absurd rfl (hno d (hhandler ▸ hd))
  have hd'mem : d' ∈ s.handler.table := hhandler ▸ List.mem_of_find?_eq_some hd'
  obtain rfl : d' = d := ok.table_slot_inj hd'mem hd (by simpa using List.find?_some hd')
  rw [e, hhandler, requestsOk_iff]
  refine ⟨ok.end_deferred hd, fun f hf j hj => List.mem_append_left _ (h2 f (hframe ▸ hf) j hj), fun b => ?_, fun b j => ?_⟩
  · rw [State.setHandler_axis, haxis]
    split
    · simp [hnone, hstate]
    · exact h3 b
  · simp only [State.setHandler_axis, haxis, State.setHandler_own, Handler.complete_table, Handler.dropEntry_table,
      List.mem_filter]
    split
    · next hab =>
      subst hab
      have gone : ∀ x ∈ s.handler.table, x.kind = .home a → x.slot = d'.slot := fun x hx hxk => by
        have := (h4 a x.slot).mpr ⟨x, hx, hxk, rfl⟩
        rw [hslot] at this
        exact (Option.some.inj this).symm
      simp only [Axis.homingSlot, hnone, Option.map_none, reduceCtorEq, false_iff]
      rintro ⟨x, ⟨hx, hne⟩, hxk, -⟩
      simp [gone x hx hxk] at hne
    · next hab =>
      rw [h4 b j]
      refine exists_congr fun x => and_congr_left fun hx => ?_
      refine ⟨fun hxm => ⟨hxm, ?_⟩, fun hxm => hxm.1⟩
      have : x ≠ d' := fun hxd => hab (by simpa [hx.1, hkind] using congrArg Deferred.kind hxd.symm)
      simpa using fun hslot => this (ok.table_slot_inj hxm hd hslot)

/-- R30, R148: a HOME is deferred and its axis becomes SEEKING under its slot. -/
theorem RequestsOk.deferHome {r : Request} (h : RequestsOk s) (hex : s.handler.executing = some r)
    (hidle : (s.axis a).state ≠ .seeking) (hslot : y.homingSlot = some r.slot) (hstate : y.state = .seeking)
    (haxes : t.axes = (s.setAxis a y).axes) (hhandler : t.handler = s.handler) (hframe : t.tx.frame = s.tx.frame) :
    RequestsOk (deferRequest r (.home a) t) := by
  obtain ⟨ok, h2, h3, h4⟩ := requestsOk_iff.mp h
  have haxis : ∀ b, t.axis b = if a = b then y else s.axis b := fun b => by
    rw [← s.axis_setAxis_eq]
    exact congrArg (fun v => v.get b) haxes
  have hnone : (s.axis a).homing = none := Option.not_isSome_iff_eq_none.mp (mt (h3 a).mp hidle)
  rw [deferRequest_eq, hhandler, requestsOk_iff]
  refine ⟨ok.defer hex (by simp), fun f hf j hj => h2 f (hframe ▸ hf) j hj, fun b => ?_, fun b j => ?_⟩
  · rw [State.setHandler_axis, haxis]
    split
    · have : y.homing.isSome := by simpa [Axis.homingSlot] using congrArg Option.isSome hslot
      simp [hstate, this]
    · exact h3 b
  · simp only [State.setHandler_axis, haxis, State.setHandler_own, Handler.endExecution_table, Handler.deferEntry_table,
      List.mem_append, List.mem_singleton, or_and_right, exists_or, exists_eq_left, ← h4 b j]
    split
    · next hab =>
      subst hab
      rw [hslot]
      simp [Axis.homingSlot, hnone]
    · next hab => simp [hab]

/-- R148, R152: a DRAIN is deferred while no other is. -/
theorem RequestsOk.deferDrain {r : Request} (h : RequestsOk s) (hex : s.handler.executing = some r)
    (hno : s.handler.drain = none) (limit stop : Nat) : RequestsOk (deferRequest r (.drain limit stop) s) := by
  obtain ⟨ok, -⟩ := requestsOk_iff.mp h
  rw [deferRequest_eq]
  refine h.setHandler (ok.defer hex fun _ _ _ => hno) (fun _ hi => hi) fun d b hd => ?_
  simp only [Handler.endExecution_table, Handler.deferEntry_table, List.mem_append, List.mem_singleton]
  exact or_iff_left (fun e => by simp [e] at hd)

/-- R143, R144: a REQUEST met by the handler. -/
theorem RequestsOk.meet (h : RequestsOk s) {i : SlotNo} (hfree : s.handler.slots.get i = .free) (tag code : Byte)
    (args : List Byte) : RequestsOk (s.setHandler (s.handler.meet i tag code args)) := by
  obtain ⟨ok, -⟩ := requestsOk_iff.mp h
  unfold Handler.meet
  split
  · next hroom => exact h.setHandler (ok.accept hfree hroom).startNext (by simp) (by simp)
  · exact h.setHandler (ok.complete_free hfree) (fun i hi => List.mem_append_left _ hi) fun _ _ _ => Iff.rfl

end

end Sys2Proof.Machine

/-!
PROOF. What every operation of the part keeps, said once for each operation: the five accounts, the queue of commands, the
timebase and the records held. The commands are put together from these in the parts after this one.
-/

namespace Sys2Proof.Machine

/-- The records that the report queue holds, oldest first. -/
def State.recordsHeld (s : State) : List Record := s.reportQueue.entries.map QueueEntry.record

/-- From `s` to `t` the queue of commands stands and every account that holds apart from the handler's is kept; the timebase
stands unless it `ticks`, and the records held stay unless it `removes`. -/
structure Steady (removes ticks : Prop) (s t : State) : Prop where
  pending : t.pending = s.pending
  timebase : ¬ticks → t.timebase = s.timebase
  records : ¬removes → s.recordsHeld <+: t.recordsHeld
  delivery : DeliveryOk s → DeliveryOk t
  axes : AxesOk s → AxesOk t
  marks : MarksOk s → MarksOk t
  units : UnitsOk s → UnitsOk t

/-- From `s` to `t` the account of the requests is kept too. -/
structure Keeps (removes ticks : Prop) (s t : State) : Prop extends Steady removes ticks s t where
  requests : RequestsOk s → RequestsOk t

section
variable {R T : Prop} {s t u : State}

theorem Steady.trans (h : Steady R T s t) (k : Steady R T t u) : Steady R T s u where
  pending := k.pending.trans h.pending
  timebase := fun hT => (k.timebase hT).trans (h.timebase hT)
  records := fun hR => (h.records hR).trans (k.records hR)
  delivery := k.delivery ∘ h.delivery
  axes := k.axes ∘ h.axes
  marks := k.marks ∘ h.marks
  units := k.units ∘ h.units

theorem Keeps.trans (h : Keeps R T s t) (k : Keeps R T t u) : Keeps R T s u where
  toSteady := h.toSteady.trans k.toSteady
  requests := k.requests ∘ h.requests

/-! ## Operations that no account reads -/

/-- Nothing that an account reads changes. -/
theorem Keeps.quiet (s : State) (tickedAt draws picks : Nat) (sensorFilters : Vector (Vector Filter 3) 4)
    (captureFilters : Vector Filter 4) (decoders : Vector Decoder 4) (outputs : Vector OutputLine 8)
    (captures : Vector CaptureLine 4) (table : Vector FilterEntry 16) (announce : Option AnnounceCause)
    (tail : Option (Byte × Nat)) :
    Keeps R T s { s with
      tickedAt := tickedAt, draws := draws, picks := picks, sensorFilters := sensorFilters, captureFilters := captureFilters
      decoders := decoders, outputs := outputs, captures := captures, reports := { s.reports with table := table }
      tx := { s.tx with announce := announce, tail := tail } } where
  pending := rfl
  timebase := fun _ => rfl
  records := fun _ => List.prefix_rfl
  delivery := id
  axes := id
  marks := id
  units := id
  requests := id

theorem Keeps.refl (s : State) : Keeps R T s s := .quiet s ..

theorem Keeps.setDecoder (s : State) (a : AxisNo) (d : Decoder) : Keeps R T s (s.setDecoder a d) := .quiet s ..

theorem Keeps.setOutput (s : State) (n : TriggerNo) (l : OutputLine) : Keeps R T s (s.setOutput n l) := .quiet s ..

theorem Keeps.setCaptureLine (s : State) (n : CaptureNo) (l : CaptureLine) : Keeps R T s (s.setCaptureLine n l) := .quiet s ..

theorem Keeps.setSensorFilter (s : State) (a : AxisNo) (f : Vector Filter 3) : Keeps R T s (s.setSensorFilter a f) := .quiet s ..

theorem Keeps.setCaptureFilter (s : State) (n : CaptureNo) (f : Filter) : Keeps R T s (s.setCaptureFilter n f) := .quiet s ..

theorem Keeps.setFilterEntry (s : State) (e : EntryNo) (f : FilterEntry) : Keeps R T s (s.setFilterEntry e f) := .quiet s ..

theorem Keeps.draw (s : State) (n : Nat) : Keeps R T s { s with draws := n } := .quiet s ..

theorem Keeps.pick (s : State) (n : Nat) : Keeps R T s { s with picks := n } := .quiet s ..

/-- A change of the handler reaches no account but its own. -/
theorem Steady.setHandler (s : State) (h : Handler) : Steady R T s (s.setHandler h) where
  pending := rfl
  timebase := fun _ => rfl
  records := fun _ => List.prefix_rfl
  delivery := id
  axes := id
  marks := id
  units := id

theorem Steady.endDeferred (i : SlotNo) (st : Status) (l : List Byte) (s : State) :
    Steady R T s (endDeferred i st l s) := by
  rw [endDeferred_eq]
  exact .setHandler s _

/-! ## Records, the report queue and the tally units -/

/-- R88: a formed record. -/
theorem Keeps.formRecord (s : State) (b : RecordBody) : Keeps R T s (s.formRecord b) where
  pending := rfl
  timebase := fun _ => rfl
  records := fun _ => (Reports.form_prefix s.timebase b s.reports).map _
  delivery := fun h => by
    obtain ⟨hq, hs⟩ := deliveryOk_iff.mp h
    have hout : (s.formRecord b).reportQueue.outstanding = s.reportQueue.outstanding :=
      Reports.form_outstanding s.timebase b s.reports
    exact deliveryOk_iff.mpr ⟨hq.form s.timebase b, hout ▸ hs⟩
  axes := id
  marks := id
  units := fun ⟨htally, hrx, hline⟩ => by
    refine ⟨fun u => ?_, hrx, hline⟩
    rcases Reports.form_tallies s.timebase b s.reports u with e | e
    · exact (show (s.formRecord b).tallyUnit u = s.tallyUnit u from e) ▸ htally u
    · exact (show (s.formRecord b).tallyUnit u = (s.tallyUnit u).increment.1 from e) ▸ (htally u).increment
  requests := id

/-- R106: a TALLY record offered to the report queue by its unit. -/
theorem Keeps.offer (s : State) (r : Record) : Keeps R T s (s.setQueue (s.reportQueue.offer r)) where
  pending := rfl
  timebase := fun _ => rfl
  records := fun _ => (ReportQueue.offer_prefix r s.reportQueue).map _
  delivery := fun h => by
    obtain ⟨hq, hs⟩ := deliveryOk_iff.mp h
    exact deliveryOk_iff.mpr ⟨hq.offer r, (ReportQueue.offer_outstanding r s.reportQueue).symm ▸ hs⟩
  axes := id
  marks := id
  units := id
  requests := id

/-- R107, R108: a tally unit replaced by one in order. -/
theorem Keeps.setTallyUnit (s : State) (u : UnitNo) {x : TallyUnit} (hx : (s.tallyUnit u).Fits → x.Fits) :
    Keeps R T s (s.setTallyUnit u x) where
  pending := rfl
  timebase := fun _ => rfl
  records := fun _ => List.prefix_rfl
  delivery := id
  axes := id
  marks := id
  units := fun ⟨htally, hrx, hline⟩ => by
    refine ⟨fun v => ?_, hrx, hline⟩
    by_cases h : u = v
    · subst h
      exact (s.tallyUnit_setTallyUnit u x).symm ▸ hx (htally u)
    · exact (s.tallyUnit_setTallyUnit_ne x h).symm ▸ htally v
  requests := id

/-- Chapter 9: the report queue and the session replaced together, whether entries are removed or not. -/
theorem Keeps.deliver (s : State) {q : ReportQueue} {x : Session}
    (hrecords : R ∨ s.recordsHeld <+: q.entries.map QueueEntry.record)
    (hq : QueueOk s.reportQueue → QueueOk q)
    (hx : SessionOk s.reportQueue.outstanding s.session → SessionOk q.outstanding x) :
    Keeps R T s ((s.setQueue q).setSession x) where
  pending := rfl
  timebase := fun _ => rfl
  records := fun hR => hrecords.resolve_left hR
  delivery := fun h => by
    obtain ⟨h1, h2⟩ := deliveryOk_iff.mp h
    exact deliveryOk_iff.mpr ⟨hq h1, hx h2⟩
  axes := id
  marks := id
  units := id
  requests := id

/-- R166: the session replaced. -/
theorem Keeps.setSession (s : State) {x : Session}
    (hx : SessionOk s.reportQueue.outstanding s.session → SessionOk s.reportQueue.outstanding x) :
    Keeps R T s (s.setSession x) :=
  .deliver s (q := s.reportQueue) (.inr List.prefix_rfl) id hx

/-! ## Axes and marks -/

/-- An axis replaced by one in order. A change of its modulus asks for an empty list. -/
theorem Steady.setAxis (s : State) (a : AxisNo) {y : Axis} (hfits : (s.axis a).Fits → y.Fits)
    (hmod : y.config.modulus = (s.axis a).config.modulus ∨ s.markList a = []) : Steady R T s (s.setAxis a y) where
  pending := rfl
  timebase := fun _ => rfl
  records := fun _ => List.prefix_rfl
  delivery := id
  axes := fun h b => by
    rw [s.axis_setAxis_eq]
    split
    · exact hfits (h a)
    · exact h b
  marks := fun h => by
    refine h.congr (fun _ => rfl) fun b => ?_
    rw [s.axis_setAxis_eq]
    split
    · next hab => exact hab ▸ hmod
    · exact .inl rfl
  units := id

/-- An axis replaced by one that is SEEKING or not as before. -/
theorem Keeps.setAxis (s : State) (a : AxisNo) {y : Axis} (hfits : (s.axis a).Fits → y.Fits)
    (hmod : y.config.modulus = (s.axis a).config.modulus ∨ s.markList a = [])
    (hseek : ((s.axis a).homing.isSome ↔ (s.axis a).state = .seeking) →
      y.homingSlot = (s.axis a).homingSlot ∧ (y.state = .seeking ↔ (s.axis a).state = .seeking)) : Keeps R T s (s.setAxis a y) where
  toSteady := .setAxis s a hfits hmod
  requests := fun h => by
    obtain ⟨-, -, hhoming, -⟩ := id h
    obtain ⟨hslot, hstate⟩ := hseek (hhoming a)
    exact h.setAxis hslot hstate

/-- R42 to R45: a list replaced by an ordered one of valid marks for which the pool has room. -/
theorem Keeps.setMarkList (s : State) (a : AxisNo) {l : List Mark} (h : MarksOk s →
      l.length ≤ (s.markList a).length + s.freeCount ∧ (l.Pairwise fun x y => x.position ≤ y.position)
        ∧ ∀ k ∈ l, k.Fits (s.axis a).config.modulus) : Keeps R T s (s.setMarkList a l) where
  pending := rfl
  timebase := fun _ => rfl
  records := fun _ => List.prefix_rfl
  delivery := id
  axes := id
  marks := fun hs => by
    obtain ⟨h1, h2, h3⟩ := h hs
    exact hs.setMarkList a h1 h2 h3
  units := id
  requests := id

/-- R57: a release. -/
theorem Keeps.release (s : State) (a : AxisNo) (tag mask : Word16) : Keeps R T s (s.release a tag mask) := by
  refine .setMarkList s a fun ⟨_, hlists⟩ => ⟨by simp, armMatching_sorted (hlists a).1, fun k hk => ?_⟩
  obtain ⟨j, hj, e | e⟩ := mem_armMatching hk <;> exact e ▸ (hlists a).2 j hj

/-! ## Homing -/

/-- R31 to R34: an axis leaves SEEKING, and after records the HOME under way on it ends. -/
theorem Keeps.endHome {a : AxisNo} {h : Homing} {y : Axis} (hh : (s.axis a).homing = some h) (hnone : y.homing = none)
    (hstate : y.state ≠ .seeking) (steady : Steady R T s t) (haxes : t.axes = (s.setAxis a y).axes)
    (hhandler : t.handler = s.handler) (hframe : t.tx.frame = s.tx.frame) (st : Status) (l : List Byte) :
    Keeps R T s (endDeferred h.slot st l t) where
  toSteady := steady.trans (.endDeferred ..)
  requests := fun hs => hs.endHome (by simp [Axis.homingSlot, hh]) hnone hstate haxes hhandler hframe st l

/-- R31 to R33: homing ends in a state that counts. -/
theorem Keeps.endHoming {a : AxisNo} {h : Homing} (hh : (s.axis a).homing = some h) {new : AxisState}
    (hnew : new.counts = true) (hne : new ≠ .seeking) (cause : StateCause) (st : Status) (l : List Byte) :
    Keeps R T s (s.endHoming a h new cause st l) := by
  refine .endHome (t := s.changeState a { s.axis a with state := new, homing := none } cause) hh rfl hne ?_ rfl rfl rfl st l
  refine (Steady.setAxis s a (fun hfits => hfits.counting ?_ hnew hne) (.inl rfl)).trans (Keeps.formRecord ..).toSteady
  simp [hfits.seeking hh, AxisState.counts]

/-- R31: the travel limit. -/
theorem Keeps.judgeTravel (a : AxisNo) (s : State) : Keeps R T s (judgeTravel a s) := by
  unfold Machine.judgeTravel
  split
  · next hh _ =>
    split
    · exact .endHoming hh rfl (by simp) ..
    · exact .refl s
  · exact .refl s

/-- R37, R38: a fault freezes the axis with its FAULT record and its STATE record, and answers a HOME under way. -/
theorem takeFault_eq (a : AxisNo) (kind : FaultKind) (s : State) :
    takeFault a kind s =
      match (s.axis a).homing with
      | none => ((s.setAxis a
          { s.axis a with
            lastFault := some (kind, s.timebase), state := .faulted, homing := none, gateTimer := none, net := 0
            lastSpeed := 0 }).formRecord (.fault a kind (s.axis a).position)).formRecord
              (.state a (s.axis a).state .faulted .fault)
      | some h => endDeferred h.slot .faulted (stepTotalBytes h.total) (((s.setAxis a
          { s.axis a with
            lastFault := some (kind, s.timebase), state := .faulted, homing := none, gateTimer := none, net := 0
            lastSpeed := 0 }).formRecord (.fault a kind (s.axis a).position)).formRecord
              (.state a (s.axis a).state .faulted .fault)) := by
  simp only [takeFault, State.changeState, Axis.stopGate, State.formRecord_axis, State.axis_setAxis,
    State.formRecord_setAxis, State.setAxis_twice] <;> rfl

/-- R37, R38: a fault. -/
theorem Keeps.takeFault (a : AxisNo) (kind : FaultKind) (s : State) : Keeps R T s (takeFault a kind s) := by
  have records : ∀ u : State, Keeps R T u ((u.formRecord (.fault a kind (s.axis a).position)).formRecord
      (.state a (s.axis a).state .faulted .fault)) :=
    fun u => (Keeps.formRecord ..).trans (.formRecord ..)
  rw [takeFault_eq]
  split
  · next hnone =>
    refine Keeps.trans (.setAxis s a (fun h => h.stop rfl _) (.inl rfl) fun hs => ?_) (records _)
    rw [hnone] at hs
    exact ⟨by simp [Axis.homingSlot, hnone], by simpa using hs⟩
  · next h hh =>
    exact .endHome hh rfl (by simp)
      ((Steady.setAxis s a (fun hfits => hfits.stop rfl _) (.inl rfl)).trans (records _).toSteady) rfl rfl rfl ..

end

end Sys2Proof.Machine

/-!
PROOF. The link, the session and the resets keep the accounts (chapters 6, 7 and 9): bytes and frames of the host, the arbiter, the
completion of a frame, a line break and its end.
-/

namespace Sys2Proof.Machine

section
variable {R T : Prop}

/-! ## The request handler's operations -/

theorem Keeps.startRequest (s : State) : Keeps R T s s.startRequest where
  toSteady := .setHandler s _
  requests := RequestsOk.startNext

theorem Keeps.answer {r : Request} {s : State} (hex : s.handler.executing = some r) (st : Status) (l : List Byte) :
    Keeps R T s (answer r st l s) where
  toSteady := .setHandler s _
  requests := fun h => h.answer hex st l

theorem Keeps.endDrain (st : Status) (s : State) : Keeps R T s (endDrain st s) where
  toSteady := by
    unfold Machine.endDrain
    split
    · exact (Keeps.refl s).toSteady
    · exact .endDeferred ..
  requests := fun h => h.endDrain st

/-- R122, R153: the empty event. -/
theorem Keeps.emptyEvent (s : State) : Keeps R T s (emptyEvent s) := by
  unfold Machine.emptyEvent
  split
  · exact .refl s
  · split
    · exact (Keeps.draw s _).trans (.endDrain ..)
    · exact .endDrain ..

/-- R143, R144: a REQUEST of the link receiver. -/
theorem Keeps.meet {s : State} {i : SlotNo} (hfree : s.handler.slots.get i = .free) (tag code : Byte) (args : List Byte) :
    Keeps R T s (s.setHandler (s.handler.meet i tag code args)) where
  toSteady := .setHandler s _
  requests := fun h => h.meet hfree tag code args

/-- R143: a slot found free is free. -/
theorem Handler.freeSlot_free {h : Handler} {i : SlotNo} (hi : h.freeSlot = some i) : h.slots.get i = .free := by
  simpa using List.find?_some hi

/-! ## The receiver -/

/-- The receiver replaced by one in order under the same break flag. -/
theorem Keeps.setRx (s : State) {x : Receiver} (hx : s.rx.Fits → x.Fits) (hb : x.broken = s.rx.broken) :
    Keeps R T s (s.setRx x) where
  pending := rfl
  timebase := fun _ => rfl
  records := fun _ => List.prefix_rfl
  delivery := id
  axes := id
  marks := id
  units := fun ⟨htally, hrx, hline⟩ => ⟨htally, hx hrx, (show x.broken = s.rx.broken from hb) ▸ hline⟩
  requests := id

theorem Keeps.countDiscard (s : State) : Keeps R T s s.countDiscard := .setRx s Receiver.Fits.discarded rfl

/-- R143, R144: a REQUEST. -/
theorem Keeps.acceptRequest (tag code : Byte) (args : List Byte) (s : State) :
    Keeps R T s (acceptRequest tag code args s) := by
  unfold Machine.acceptRequest
  split
  · exact .refl s
  · split
    · exact .countDiscard s
    · next i hi =>
      have hfree := Handler.freeSlot_free hi
      split
      · split
        · have hnext : s.startRequest.handler.slots.get i = .free := by simpa [State.startRequest] using hfree
          exact ((Keeps.startRequest s).trans (.draw _ (s.draws + 1))).trans
            (.meet (s := { s.startRequest with draws := s.draws + 1 }) hnext tag code args)
        · exact (Keeps.draw s _).trans (.meet (s := { s with draws := s.draws + 1 }) hfree tag code args)
      · exact .meet hfree tag code args

/-! ## The session -/

/-- R166: the host heard. -/
theorem Keeps.hostHeard (s : State) : Keeps R T s (hostHeard s) := by
  unfold Machine.hostHeard
  split
  · next hs =>
    refine .setSession s fun ⟨hw, _, hopen, ht⟩ => ?_
    have hzero := hopen (by simp [hs])
    exact ⟨hw, by simp [hzero], by simp, ht⟩
  · exact .refl s

/-- R122: the queue and the session after entries have been removed, with the empty event. -/
theorem Keeps.afterRemoval (hR : R) (s : State) {q : ReportQueue} {x : Session} (hq : QueueOk s.reportQueue → QueueOk q)
    (hx : SessionOk s.reportQueue.outstanding s.session → SessionOk q.outstanding x) :
    Keeps R T s (afterRemoval q (s.setSession x)) := by
  have deliver : Keeps R T s ((s.setSession x).setQueue q) := Keeps.deliver s (.inl hR) hq hx
  unfold Machine.afterRemoval
  split
  · exact deliver.trans (.emptyEvent _)
  · exact deliver

/-- R164: an ACK. -/
theorem Keeps.takeAck (hR : R) (n : Word16) (s : State) : Keeps R T s (takeAck n s) := by
  unfold Machine.takeAck
  split
  · next hvalid =>
    refine .afterRemoval hR s (fun hq => hq.removeOldest ..) fun ⟨hw, hwithin, _, _⟩ => ⟨hw, ?_, ?_, ?_⟩
    · exact (ReportQueue.removeOldest_outstanding_le ..).trans hwithin
    · exact fun hne => absurd hvalid.1 hne
    · dsimp only [State.ackTimerAfter]
      split
      · next h0 => simp [h0]
      · next h0 => simp [h0, State.freshAckTimer]
  · exact .refl s

/-- R165: a NAK. -/
theorem Keeps.takeNak (hR : R) (n : Word16) (s : State) : Keeps R T s (takeNak n s) := by
  unfold Machine.takeNak
  split
  · refine .afterRemoval hR s (fun hq => (hq.removeOldest ..).revert) fun hs => ?_
    rw [ReportQueue.revert_outstanding]
    exact .quiet hs.window rfl
  · exact .refl s

/-- R131: a good frame; a REQUEST, and a frame discarded for its kind or length, remove no record. -/
theorem Keeps.routeFrame (f : Frame) (s : State) (hR : R ∨ wrongKind f = true ∨ f.kind = kindRequest) :
    Keeps R T s (routeFrame f s) := by
  unfold Machine.routeFrame
  dsimp only
  refine (Keeps.hostHeard s).trans ?_
  split
  · exact .countDiscard _
  next hkind =>
  split
  · exact .acceptRequest ..
  next hrequest =>
  have removes : R := (hR.resolve_right fun h => h.elim hkind hrequest)
  split
  · exact .takeAck removes ..
  · exact .takeNak removes ..

/-- R131: no frame moves the break flag. -/
theorem routeFrame_broken (f : Frame) (s : State) : (routeFrame f s).rx.broken = s.rx.broken := by
  have removal : ∀ q u, (afterRemoval q u).rx = u.rx := fun q u => by
    obtain ⟨_, _, _, e⟩ := afterRemoval_frame q u
    rw [e]
  have heard : (hostHeard s).rx = s.rx := by
    unfold hostHeard
    split <;> rfl
  unfold routeFrame acceptRequest takeAck takeNak
  dsimp only
  repeat' split
  all_goals first
    | exact congrArg Receiver.broken heard
    | exact (show (hostHeard s).countDiscard.rx.broken = (hostHeard s).rx.broken from rfl).trans (congrArg _ heard)
    | exact congrArg Receiver.broken ((removal ..).trans heard)

/-- R128: a byte taken leaves the receiver in order when no break is on. -/
theorem Keeps.takeByte {s₀ s : State} (k : Keeps R T s₀ s) (hb : UnitsOk s₀ → s.rx.broken = false) (b : Byte) :
    Keeps R T s₀ (s.setRx (s.rx.take s.clock b).1) where
  pending := k.pending
  timebase := k.timebase
  records := k.records
  delivery := k.delivery
  axes := k.axes
  marks := k.marks
  units := fun h => by
    obtain ⟨htally, hrx, hline⟩ := k.units h
    exact ⟨htally, hrx.take (hb h) s.clock b, (show (s.rx.take s.clock b).1.broken = _ from s.rx.take_broken s.clock b) ▸ hline⟩
  requests := k.requests

/-- R128, R129: bytes judged, while no break is on. -/
theorem Keeps.judgeBytes (hR : R) (fuel : Nat) (bytes : List Byte) {s₀ s : State} (k : Keeps R T s₀ s)
    (hb : UnitsOk s₀ → s.rx.broken = false) : Keeps R T s₀ (judgeBytes fuel bytes s) := by
  induction fuel generalizing bytes s with
  | zero => exact k
  | succ fuel ih =>
    cases bytes with
    | nil => exact k
    | cons b rest =>
      have hx : UnitsOk s₀ → (s.rx.take s.clock b).1.broken = false := fun h => (s.rx.take_broken s.clock b).trans (hb h)
      have taken := k.takeByte hb b
      unfold Machine.judgeBytes
      split
      · next x e =>
        rw [e] at hx taken
        exact ih rest taken hx
      · next x f e =>
        rw [e] at hx taken
        exact ih rest (taken.trans (.routeFrame f _ (.inl hR))) fun h => (routeFrame_broken f _).trans (hx h)
      · next x held e =>
        rw [e] at hx taken
        exact ih (held ++ rest) (taken.trans (.countDiscard _)) hx

theorem Keeps.receiveBytes (hR : R) (bytes : List Byte) {s : State} (hb : s.rx.broken = false) :
    Keeps R T s (receiveBytes bytes s) :=
  .judgeBytes hR _ bytes (.refl s) fun _ => hb

/-- The receiver of characters replaced by one in order. -/
theorem Keeps.setLine (s : State) {x : LineReceiver}
    (hx : s.line.Fits s.rx.broken s.clock → x.Fits s.rx.broken s.clock) : Keeps R T s (s.setLine x) where
  pending := rfl
  timebase := fun _ => rfl
  records := fun _ => List.prefix_rfl
  delivery := id
  axes := id
  marks := id
  units := fun ⟨htally, hrx, hline⟩ => ⟨htally, hrx, hx hline⟩
  requests := id

theorem Keeps.dropDue (s : State) : Keeps R T s s.dropDue := .setLine s LineReceiver.Fits.dropDue

/-- R125, R128: a byte of a character. -/
theorem Keeps.takeRxdByte (hR : R) (b : Byte) (s : State) : Keeps R T s (takeRxdByte b s) := by
  unfold Machine.takeRxdByte
  split
  · exact .refl s
  · next hb =>
    split
    · exact (Keeps.dropDue s).trans (.receiveBytes hR _ (Bool.eq_false_of_not_eq_true hb))
    · exact .refl s

/-- R129: a frame in progress discarded. -/
theorem Keeps.discardFrame (hR : R) (held : List Byte) {s : State} (hb : UnitsOk s → s.rx.broken = false) :
    Keeps R T s (discardFrame held s) :=
  .judgeBytes hR _ held ((Keeps.setRx s Receiver.Fits.toHunt rfl).trans (.countDiscard _)) hb

/-- R125, R129: a character error, or a damaged frame. -/
theorem Keeps.takeDiscard (hR : R) (cause : Discard) (s : State) : Keeps R T s (takeDiscard cause s) := by
  unfold Machine.takeDiscard
  split
  · split
    · exact .refl s
    · next hb =>
      split
      · split
        · exact .dropDue s
        · exact (Keeps.dropDue s).trans (.discardFrame hR _ fun _ => Bool.eq_false_of_not_eq_true hb)
      · exact .refl s
  · split
    · next h =>
      obtain ⟨hframes, -⟩ := h
      simp only [State.takesFrames, Bool.and_eq_true, Bool.not_eq_true'] at hframes
      exact .discardFrame hR _ fun _ => hframes.1.1
    · exact .refl s

/-- R125: the character due. -/
theorem Keeps.takeCharacter (s : State) (h : R ∨ s.line.due = none) : Keeps R T s (takeCharacter s) := by
  unfold Machine.takeCharacter
  split
  · exact .refl s
  · next hdue => exact .takeRxdByte (h.resolve_right (by simp [hdue])) ..
  · next hdue => exact .takeDiscard (h.resolve_right (by simp [hdue])) ..

/-- R130: the gap timer, which runs only while no break is on. -/
theorem Keeps.takeGapExpiry (hR : R) (s : State) : Keeps R T s (takeGapExpiry s) := by
  unfold Machine.takeGapExpiry
  split
  · exact .refl s
  · split
    · next h =>
      obtain ⟨hstate, -⟩ := h
      exact .discardFrame hR _ fun ⟨_, ⟨_, hheld, _⟩, _⟩ => (hheld hstate).2
    · exact .refl s

/-- R131: a whole frame. -/
theorem Keeps.takeFrame (f : Frame) (s : State) (hR : R ∨ wrongKind f = true ∨ f.kind = kindRequest) :
    Keeps R T s (takeFrame f s) := by
  unfold Machine.takeFrame
  split
  · exact (Keeps.setRx s Receiver.Fits.toHunt rfl).trans (.routeFrame f _ hR)
  · exact .refl s

/-! ## The transmitter and the session's timers -/

/-- R135: a frame starts; a reply frame is of a completed reply. -/
theorem Keeps.startFrame (s : State) (source : Source) (f : Frame)
    (h : ∀ i, source = .reply i → i ∈ s.handler.order) : Keeps R T s (s.startFrame source f) where
  pending := rfl
  timebase := fun _ => rfl
  records := fun _ => List.prefix_rfl
  delivery := id
  axes := id
  marks := id
  units := id
  requests := fun hs => by
    rw [requestsOk_iff] at hs ⊢
    obtain ⟨h1, -, h3⟩ := hs
    refine ⟨h1, fun g hg i hi => ?_, h3⟩
    obtain rfl : _ = g := Option.some.inj hg
    exact h i hi

/-- R118, R138, R163: a REPORT frame starts, when the session allows it. -/
theorem Keeps.startReport {s : State} (h : s.reportAllowed = true) : Keeps R T s (startReport s) := by
  unfold Machine.startReport
  split
  · exact .refl s
  · next c q hm =>
    simp only [State.reportAllowed, Bool.and_eq_true, beq_iff_eq, decide_eq_true_eq] at h
    obtain ⟨⟨hopen, hroom⟩, -⟩ := h
    refine Keeps.trans (.deliver s (.inr ?_) (fun hq => hq.markSent hm) fun ⟨hw, _, _, ht⟩ => ?_) (.startFrame _ _ _ (by simp))
    · exact (ReportQueue.markSent_records hm).symm ▸ List.prefix_rfl
    · rw [ReportQueue.markSent_outstanding hm]
      refine ⟨hw, hroom, fun hne => absurd hopen hne, ?_⟩
      dsimp only
      split
      · simp [State.freshAckTimer]
      · next hne => simp [ht.mpr hne]

/-- R136: the arbiter's choice. -/
theorem Keeps.takeArbiter (s : State) : Keeps R T s (takeArbiter s) := by
  unfold Machine.takeArbiter
  split
  · exact .refl s
  · split
    · exact Keeps.trans (.quiet s ..) (.startFrame _ _ _ (by simp))
    · split
      · next i rest horder =>
        split
        · exact .startFrame _ _ _ fun j hj => by
            obtain rfl := Source.reply.inj hj
            simp [horder]
        · exact .refl s
      · split
        · next h => exact .startReport h
        · exact .refl s

/-- The transmitter with no frame in progress. -/
theorem Keeps.endFrame (s : State) : Keeps R T s s.endFrame where
  pending := rfl
  timebase := fun _ => rfl
  records := fun _ => List.prefix_rfl
  delivery := id
  axes := id
  marks := id
  units := id
  requests := fun hs => by
    rw [requestsOk_iff] at hs ⊢
    obtain ⟨h1, -, h3⟩ := hs
    exact ⟨h1, by simp [State.endFrame], h3⟩

/-- R163: a REPORT frame completes. -/
theorem Keeps.reportCompleted (s : State) : Keeps R T s (reportCompleted s) := by
  unfold Machine.reportCompleted
  split
  · exact .refl s
  · next hne =>
    exact .setSession s fun ⟨hw, hwithin, hopen, _⟩ => ⟨hw, hwithin, hopen, by simp [hne, State.freshAckTimer]⟩

/-- R167: the ack timer. -/
theorem Keeps.takeAckExpiry (s : State) : Keeps R T s (takeAckExpiry s) := by
  unfold Machine.takeAckExpiry
  split
  · refine .deliver s (.inr ?_) QueueOk.revert fun hs => ?_
    · exact (ReportQueue.revert_records s.reportQueue).symm ▸ List.prefix_rfl
    · rw [ReportQueue.revert_outstanding]
      exact .quiet hs.window rfl
  · exact .refl s

/-- R169, R170: the session closes. -/
theorem Keeps.closeSessionState (s : State) : Keeps R T s (closeSessionState s) := by
  unfold Machine.closeSessionState
  split
  · exact .refl s
  · refine .deliver s (.inr ?_) QueueOk.revert fun hs => ?_
    · exact (ReportQueue.revert_records s.reportQueue).symm ▸ List.prefix_rfl
    · rw [ReportQueue.revert_outstanding]
      exact .quiet hs.window rfl

/-- R153: the drain timer. -/
theorem Keeps.takeDrainExpiry (s : State) : Keeps R T s (takeDrainExpiry s) := by
  unfold Machine.takeDrainExpiry
  split
  · exact .refl s
  · split
    · exact .endDrain ..
    · exact .refl s

/-! ## Resets -/

theorem deliveryOk_reset : DeliveryOk State.reset := by
  refine deliveryOk_iff.mpr ⟨⟨by decide, ⟨?_, by decide⟩, fun h => absurd rfl h, by decide, List.Pairwise.nil, ?_⟩,
    .quiet (by decide) rfl⟩ <;> simp [State.reportQueue, State.reset, Reports.reset, ReportQueue.reset]

@[simp] theorem State.reset_axis (a : AxisNo) : State.reset.axis a = Axis.reset := by fin_cases a <;> rfl

@[simp] theorem State.reset_markList (a : AxisNo) : State.reset.markList a = [] := by fin_cases a <;> rfl

theorem axesOk_reset : AxesOk State.reset := fun a => by
  simp [Axis.Fits, Axis.reset, AxisConfig.Fits, AxisConfig.reset, AxisState.counts, PositionFits, InInt32]

theorem marksOk_reset : MarksOk State.reset := ⟨by decide, by simp⟩

theorem requestsOk_reset : RequestsOk State.reset := by
  refine requestsOk_iff.mpr ⟨Handler.reset_accounts, ?_, ?_, ?_⟩
  · simp [State.reset, Transmitter.reset]
  · simp [Axis.reset]
  · simp only [State.reset_axis]
    simp [Axis.homingSlot, Axis.reset, State.reset, Handler.reset]

/-- A tally unit at its reset values is in order. -/
theorem unitsOk_reset : UnitsOk State.reset := by
  refine ⟨fun u => ?_, by simp [State.reset, Receiver.Fits, Receiver.reset],
    LineReceiver.fits_of_no_char rfl rfl (by simp [State.reset, LineReceiver.reset])⟩
  have : State.reset.tallyUnit u = TallyUnit.reset := by fin_cases u <;> rfl
  simp [this, TallyUnit.Fits, TallyUnit.reset]

/-- A reset leaves every account, whatever the state before it. -/
theorem Keeps.restart (hR : R) (hT : T) (cause : AnnounceCause) (pins : ResetPins) (low : Bool)
    (announce : Option AnnounceCause) (s : State) :
    Keeps R T s { restart cause pins s with
      resetLow := low, tx := { frame := none, announce := announce, tail := none } } where
  pending := rfl
  timebase := fun h => absurd hT h
  records := fun h => absurd hR h
  delivery := fun _ => deliveryOk_reset
  axes := fun _ => axesOk_reset
  marks := fun _ => marksOk_reset
  units := fun _ => ⟨unitsOk_reset.1, unitsOk_reset.2.1, LineReceiver.fits_of_no_char rfl rfl (by
    cases h : pins.rxd <;> simp [restart_eq, h, State.reset])⟩
  requests := fun _ => requestsOk_reset

/-- R135: a frame completes; the reply of a RESET_DEVICE resets. -/
theorem Keeps.takeCompletion (hR : R) (hT : T) (straps : BitVec 2) (s : State) : Keeps R T s (takeCompletion straps s) := by
  unfold Machine.takeCompletion
  split
  · exact .refl s
  · next f hf =>
    split
    · exact .refl s
    · split
      · exact .endFrame s
      · exact (Keeps.endFrame s).trans (.reportCompleted _)
      · next i hi =>
        split
        · exact .restart hR hT .resetRequest { straps := straps, rxd := s.line.level.map fun l => l.1 } false _ s
        · refine ⟨(Keeps.endFrame s).toSteady.trans (.setHandler ..), fun h => ?_⟩
          obtain ⟨ok, hframe, -⟩ := requestsOk_iff.mp h
          have hmem := hframe f hf i hi
          rw [requestsOk_iff]
          obtain ⟨-, -, h3, h4⟩ := requestsOk_iff.mp h
          exact ⟨ok.sent hmem, by simp [State.endFrame, State.setHandler], h3, h4⟩

/-! ## Line break (R133, R134) -/

/-- A break takes an axis from SEEKING (R34). -/
def Axis.broken (x : Axis) : Axis := if x.state = .seeking then { x with state := .free, homing := none } else x

@[simp] theorem Axis.broken_config (x : Axis) : x.broken.config = x.config := by
  unfold Axis.broken
  split <;> rfl

@[simp] theorem Axis.broken_twice (x : Axis) : x.broken.broken = x.broken := by
  unfold Axis.broken
  split <;> simp_all

/-- R34: one axis at a break. -/
theorem breakAxis_axis (s : State) (a b : AxisNo) :
    (breakAxis s a).axis b = if a = b then (s.axis b).broken else s.axis b := by
  unfold breakAxis Axis.broken State.changeState
  split
  · rw [State.formRecord_axis, s.axis_setAxis_eq]
    split
    · next h hab => simp [← hab, h]
    · rfl
  · next h =>
    split
    · next hab => simp [← hab, h]
    · rfl

/-- R34: the axes at a break, in any order. -/
theorem foldl_breakAxis_axis (l : List AxisNo) (s : State) (b : AxisNo) :
    (l.foldl breakAxis s).axis b = if b ∈ l then (s.axis b).broken else s.axis b := by
  induction l generalizing s with
  | nil => simp
  | cons a l ih =>
    rw [List.foldl_cons, ih, breakAxis_axis]
    by_cases hab : a = b
    · simp [hab]
    · simp [hab, Ne.symm hab]

/-- Free values choose an order of the elements and nothing else. -/
theorem shuffle_perm {α : Type} (fuel n : Nat) (l : List α) : (shuffle fuel n l).Perm l := by
  induction fuel generalizing n l with
  | zero => exact .refl l
  | succ fuel ih =>
    match l with
    | [] => exact .refl []
    | [x] => exact .refl [x]
    | x :: y :: l =>
      unfold shuffle
      split
      · exact .refl _
      · next z hz =>
        obtain ⟨hlt, rfl⟩ := List.getElem?_eq_some_iff.mp hz
        exact ((ih _ _).cons _).trans (List.getElem_cons_eraseIdx_perm hlt)

/-- R34, R133: after a break no axis is SEEKING, and nothing else of an axis has changed. -/
theorem breakAxes_axis (s : State) (b : AxisNo) : (breakAxes s).axis b = (s.axis b).broken := by
  unfold breakAxes
  dsimp only
  rw [foldl_breakAxis_axis]
  split
  · rfl
  · next h =>
    have hno : (s.axis b).state ≠ .seeking := fun e => h <| (shuffle_perm ..).mem_iff.mpr <| by
      fin_cases b <;> simpa [State.seekingAxes, allAxes] using e
    exact (if_neg hno).symm

/-- R34: a break reaches the axes and their STATE records, and nothing else but the count of free values. -/
theorem breakAxes_frame (s : State) :
    ∃ axes reports draws, breakAxes s = { s with axes := axes, reports := reports, draws := draws } := by
  have all : ∀ (l : List AxisNo) (u : State), ∃ axes reports, l.foldl breakAxis u = { u with axes := axes, reports := reports } := by
    intro l
    induction l with
    | nil => exact fun u => ⟨_, _, rfl⟩
    | cons a l ih =>
      intro u
      obtain ⟨x, r, e⟩ := ih (breakAxis u a)
      rw [List.foldl_cons, e]
      unfold breakAxis State.changeState
      split <;> exact ⟨_, _, rfl⟩
  obtain ⟨x, r, e⟩ := all (shuffle s.seekingAxes.length s.draws s.seekingAxes) { s with draws := s.draws + s.seekingAxes.length }
  exact ⟨x, r, _, e⟩

/-- R34: the axes of a break keep every account but that of the requests. -/
theorem Steady.breakAxes (s : State) : Steady R T s (breakAxes s) := by
  have one : ∀ (u : State) (a : AxisNo), Steady R T u (breakAxis u a) := fun u a => by
    unfold breakAxis State.changeState
    split
    · next h =>
      exact (Steady.setAxis u a (fun hf => hf.counting (by simp [h, AxisState.counts]) rfl (by simp)) (.inl rfl)).trans
        (Keeps.formRecord ..).toSteady
    · exact (Keeps.refl u).toSteady
  have all : ∀ (l : List AxisNo) (u : State), Steady R T u (l.foldl breakAxis u) := fun l => by
    induction l with
    | nil => exact fun u => (Keeps.refl u).toSteady
    | cons a l ih => exact fun u => (one u a).trans (ih _)
  exact (Keeps.draw s _).toSteady.trans (all _ _)

/-- R133, R140: the receiver and the transmitter at a break. -/
theorem Steady.breakLink (s : State) : Steady R T s (breakLink s) where
  pending := by
    unfold Machine.breakLink
    split <;> rfl
  timebase := fun _ => by
    unfold Machine.breakLink
    split <;> rfl
  records := fun _ => by
    unfold Machine.breakLink
    split <;> exact List.prefix_rfl
  delivery := by
    unfold Machine.breakLink
    split <;> exact id
  axes := by
    unfold Machine.breakLink
    split <;> exact id
  marks := by
    unfold Machine.breakLink
    split <;> exact id
  units := fun ⟨htally, hrx, hline⟩ => by
    have counted : ∀ x : Receiver, x.Fits → Receiver.Fits { x.toHunt with broken := true } := fun x hx => by
      obtain ⟨-, -, -, -, -, h6⟩ := hx.toHunt
      simp [Receiver.Fits, Receiver.toHunt] at h6 ⊢
      exact h6
    obtain ⟨-, -, h3, -⟩ := hline
    unfold Machine.breakLink
    split
    · exact ⟨htally, counted _ hrx, LineReceiver.fits_of_no_char rfl rfl h3⟩
    · exact ⟨htally, counted _ hrx.discarded, LineReceiver.fits_of_no_char rfl rfl h3⟩

/-- R133: a line break. -/
theorem Keeps.takeBreak (s : State) : Keeps R T s (takeBreak s) := by
  unfold Machine.takeBreak
  split
  · exact .refl s
  · refine Keeps.trans ⟨((Steady.breakLink s).trans (.setHandler ..)).trans (.breakAxes _), fun hs => ?_⟩
      (.closeSessionState _)
    obtain ⟨-, -, hhoming, -⟩ := hs
    obtain ⟨axes, reports, draws, e⟩ := breakAxes_frame ((breakLink s).setHandler (breakLink s).handler.discardAll)
    have haxis : ∀ a, (Machine.breakAxes ((breakLink s).setHandler (breakLink s).handler.discardAll)).axis a
        = (s.axis a).broken := fun a => by
      rw [breakAxes_axis]
      unfold breakLink
      split <;> rfl
    have hidle : ∀ x : Axis, (x.homing.isSome ↔ x.state = .seeking) → x.broken.homing = none ∧ x.broken.state ≠ .seeking := by
      intro x hx
      unfold Axis.broken
      split
      · simp
      · next hs => exact ⟨Option.not_isSome_iff_eq_none.mp (mt hx.mp hs), hs⟩
    rw [requestsOk_iff]
    refine ⟨?_, ?_, fun a => ?_, fun a i => ?_⟩
    · rw [e]
      exact Handler.reset_accounts
    · rw [e]
      simp [State.setHandler, breakLink]
    · obtain ⟨h1, h2⟩ := hidle _ (hhoming a)
      simp [haxis, h1, h2]
    · obtain ⟨h1, -⟩ := hidle _ (hhoming a)
      rw [haxis, e]
      simp [Axis.homingSlot, h1, State.setHandler, Handler.discardAll, Handler.reset]

/-- R134: the end of a line break. -/
theorem Keeps.takeBreakEnd (s : State) : Keeps R T s (takeBreakEnd s) := by
  unfold Machine.takeBreakEnd
  split
  · next h =>
    refine ⟨⟨rfl, fun _ => rfl, fun _ => List.prefix_rfl, id, id, id, fun ⟨htally, hrx, hline⟩ => ⟨htally, ?_, ?_⟩⟩, id⟩
    · obtain ⟨h1, h2, -, -, -, h6⟩ := hrx
      have hhunt : s.rx.state = .hunt := by
        by_contra hne
        simpa [h.1] using (h2 hne).2
      simp [Receiver.Fits, hhunt, h1 hhunt, h6]
    · obtain ⟨-, h2, h3, -⟩ := hline
      obtain ⟨hchar, hdue⟩ := h2 h.1
      exact LineReceiver.fits_of_no_char hchar hdue h3
  · exact .refl s

end

end Sys2Proof.Machine

/-!
PROOF. The hand-overs of a sample, the clock and the timers keep the accounts (chapters 1 to 5).
-/

namespace Sys2Proof.Machine

section
variable {R T : Prop}

/-! ## Axes -/

/-- R24: a step. -/
theorem Keeps.takeStep (a : AxisNo) (s : State) : Keeps R T s (takeStep a s) := by
  unfold Machine.takeStep
  dsimp only
  split
  · split
    · exact .refl s
    · split
      · next dir inferred rest _ _ hcounts =>
        have moved : Keeps R T s ((s.setDecoder a { s.decoder a with results := rest }).setAxis a
            ((s.axis a).stepped1 dir inferred)) :=
          (Keeps.setDecoder ..).trans <| .setAxis _ a (fun hf => hf.stepped1 hcounts dir inferred) (.inl rfl) fun _ =>
            ⟨by simp [Axis.homingSlot, Axis.stepped1, Function.comp_def], Iff.rfl⟩
        split
        · exact moved.trans (.judgeTravel ..)
        · exact moved
      · exact .setDecoder ..
  · exact .refl s

/-- R13: a skip notice. -/
theorem Keeps.takeSkip (a : AxisNo) (s : State) : Keeps R T s (takeSkip a s) := by
  unfold Machine.takeSkip
  dsimp only
  split
  · split
    · exact .refl s
    · exact (Keeps.setDecoder ..).trans (.formRecord ..)
  · exact .refl s

theorem Keeps.reportIndex (s : State) (a : AxisNo) (drift : Option Int) (corrected : Bool) :
    Keeps R T s (s.reportIndex a drift corrected) := by
  unfold State.reportIndex
  split
  · exact .formRecord ..
  · exact .refl s

@[simp] theorem State.reportIndex_axis (s : State) (a b : AxisNo) (drift : Option Int) (corrected : Bool) :
    (s.reportIndex a drift corrected).axis b = s.axis b := by
  unfold State.reportIndex
  split <;> rfl

/-- R29, R32, R36: a jump of the position of an axis. -/
theorem Keeps.jump (s : State) (a : AxisNo) {p t : Int}
    (h : (s.axis a).Fits → PositionFits (s.axis a).config.modulus p ∧ InInt32 t ∧ ((s.axis a).config.modulus = 0 → t = 0)) :
    Keeps R T s (s.setAxis a { s.axis a with position := p, turns := t }) :=
  .setAxis s a (fun hf => hf.jump (h hf).1 (h hf).2.1 (h hf).2.2) (.inl rfl) fun _ => ⟨rfl, Iff.rfl⟩

/-- R36, R37: the index check, on an axis with a modulus. -/
theorem Keeps.checkIndex (a : AxisNo) {s : State} (hm : (s.axis a).config.modulus ≠ 0) : Keeps R T s (checkIndex a s) := by
  unfold Machine.checkIndex
  dsimp only
  split
  · split
    · refine (Keeps.reportIndex s a _ _).trans (.setAxis _ a (fun hf => ?_) (.inl rfl) fun _ => ⟨rfl, Iff.rfl⟩)
      rw [State.reportIndex_axis] at hf ⊢
      obtain ⟨⟨-, -, -, hoffset, -⟩, -, hturns, -⟩ := id hf
      exact hf.jump hoffset (correctedTurns_inInt32 hturns) fun h => absurd h hm
    · exact .reportIndex ..
  · exact (Keeps.reportIndex ..).trans (.takeFault ..)

/-- R32: homing completed. -/
theorem Keeps.completeHoming (a : AxisNo) {h : Homing} {s : State} (hh : (s.axis a).homing = some h) :
    Keeps R T s (completeHoming a h s) := by
  unfold Machine.completeHoming
  dsimp only
  refine Keeps.trans (.jump s a fun hf => ?_) (.endHoming (by simpa using hh) rfl (by simp) ..)
  obtain ⟨⟨-, -, -, hoffset, -⟩, -⟩ := hf
  exact ⟨hoffset, by decide, fun _ => rfl⟩

/-- R32, R35, R36: an index arrival. -/
theorem Keeps.useIndex (a : AxisNo) (d : Direction) (s : State) : Keeps R T s (useIndex a d s) := by
  unfold Machine.useIndex
  dsimp only
  split
  · exact .reportIndex ..
  · split
    · next h =>
      simp only [AxisConfig.checkActs, Bool.and_eq_true, bne_iff_ne, ne_eq] at h
      exact .checkIndex a h.1.2
    · exact .reportIndex ..
  · split
    · exact .refl s
    · next hh =>
      split
      · exact .completeHoming a hh
      · exact .reportIndex ..
  · exact .refl s
  · exact .refl s

/-- R17, R18: an index edge. -/
theorem Keeps.takeIndex (a : AxisNo) (s : State) : Keeps R T s (takeIndex a s) := by
  unfold Machine.takeIndex
  dsimp only
  split
  · exact .refl s
  · split
    · exact .refl s
    · split
      · split
        · exact ((Keeps.setDecoder ..).trans (.useIndex ..)).trans (.judgeTravel ..)
        · exact (Keeps.setDecoder ..).trans (.judgeTravel ..)
      · exact .setDecoder ..

/-- R7, R8: a pattern change. -/
theorem Keeps.takePattern (a : AxisNo) (s : State) : Keeps R T s (takePattern a s) := by
  unfold Machine.takePattern
  dsimp only
  split
  · split
    · exact .setDecoder ..
    · split
      · exact .setDecoder ..
      · exact .setDecoder ..
      all_goals
        split
        all_goals first
          | exact .setDecoder ..
          | exact (Keeps.setDecoder ..).trans (.takeFault ..)
  · exact .refl s

/-- R40: a gate expiry. -/
theorem Keeps.takeGateExpiry (a : AxisNo) (s : State) : Keeps R T s (takeGateExpiry a s) := by
  unfold Machine.takeGateExpiry
  dsimp only
  split
  · exact .refl s
  · next t ht =>
    split
    · exact .setAxis s a (fun hf => hf.gate ht _) (.inl rfl) fun _ => ⟨rfl, Iff.rfl⟩
    · exact .refl s

/-- R33: the homing timer. -/
theorem Keeps.takeHomingExpiry (a : AxisNo) (s : State) : Keeps R T s (takeHomingExpiry a s) := by
  unfold Machine.takeHomingExpiry
  split
  · exact .refl s
  · next hh =>
    split
    · exact .endHoming hh rfl (by simp) ..
    · exact .refl s

/-! ## Marks, trigger lines and capture lines -/

theorem Keeps.claimPulse (s : State) (n : TriggerNo) : Keeps R T s (s.claimPulse n).1 := .setOutput s n _

/-- R55: a mark that has fired leaves its place and may enter again; it is one of the list but for its arm state. -/
theorem Keeps.reposition (s : State) (a : AxisNo) {p : Int} {n : Nat} {j m : Mark}
    (hn : n < (marksAt p (s.markList a)).length) (hj : j ∈ s.markList a) (hm : ∀ modulus, j.Fits modulus → m.Fits modulus) :
    Keeps R T s (s.reposition a p n m) := by
  refine .setMarkList s a fun ⟨_, hlists⟩ => ?_
  obtain ⟨hsorted, hfits⟩ := hlists a
  have hsub := removeNthAt_sublist p n (s.markList a)
  have hlen := removeNthAt_length hn
  split
  · exact ⟨by omega, hsorted.sublist hsub, fun k hk => hfits k (hsub.subset hk)⟩
  · next m' hm' =>
    refine ⟨by rw [insertMark_length]; omega, insertMark_sorted (hsorted.sublist hsub) m', fun k hk => ?_⟩
    rcases mem_insertMark.mp hk with rfl | hk
    · exact (hm _ (hfits j hj)).afterFiring hm'
    · exact hfits k (hsub.subset hk)

/-- R57: a release leaves each mark at its position. -/
theorem marksAt_armMatching_length (p : Int) (tag mask : Word16) (l : List Mark) :
    (marksAt p (armMatching tag mask l)).length = (marksAt p l).length := by
  simp only [marksAt, armMatching, ← List.countP_eq_length_filter, List.countP_map]
  refine List.countP_congr fun m _ => ?_
  simp only [Function.comp_apply]
  split <;> rfl

/-- R51: the pulse action of a mark. -/
theorem Keeps.pulseAction (s : State) (pulse : Option TriggerNo) : Keeps R T s (s.pulseAction pulse).1 := by
  unfold State.pulseAction
  split
  · exact .refl s
  · exact .claimPulse ..

@[simp] theorem State.pulseAction_markList (s : State) (pulse : Option TriggerNo) (a : AxisNo) :
    (s.pulseAction pulse).1.markList a = s.markList a := by
  cases pulse <;> rfl

/-- R53: the release action of a mark. -/
theorem Keeps.releaseAction (s : State) (release : Option (AxisNo × Word16)) : Keeps R T s (s.releaseAction release).1 := by
  unfold State.releaseAction
  split
  · exact .refl s
  · exact .release ..

/-- R53, R57: a list after the release action of a mark. -/
theorem State.releaseAction_markList (s : State) (release : Option (AxisNo × Word16)) (a : AxisNo) :
    (s.releaseAction release).1.markList a = s.markList a
    ∨ ∃ tag, (s.releaseAction release).1.markList a = armMatching tag exactMask (s.markList a) := by
  cases release with
  | none => exact .inl rfl
  | some x =>
    simp only [State.releaseAction, State.release, s.markList_setMarkList_eq]
    split
    · next h => exact .inr ⟨x.2, by rw [h]⟩
    · exact .inl rfl

/-- R54: the FIRE record of a mark. -/
theorem Keeps.fireRecord (s : State) (a : AxisNo) (arr : Arrival) (m : Mark) (busy : Bool) (released : Option Nat)
    (snapshot : Option (List SnapEntry)) : Keeps R T s (s.fireRecord a arr m busy released snapshot) := by
  unfold State.fireRecord
  split
  · exact .formRecord ..
  · exact .refl s

@[simp] theorem State.fireRecord_markList (s : State) (a : AxisNo) (arr : Arrival) (m : Mark) (busy : Bool)
    (released : Option Nat) (snapshot : Option (List SnapEntry)) (b : AxisNo) :
    (s.fireRecord a arr m busy released snapshot).markList b = s.markList b := by
  unfold State.fireRecord
  split <;> rfl

/-- R50: a mark of the list fires. -/
theorem Keeps.fireMark (s : State) (a : AxisNo) (arr : Arrival) {n : Nat} {m : Mark}
    (hn : (marksAt arr.position (s.markList a))[n]? = some m) : Keeps R T s (s.fireMark a arr n m) := by
  have hlt : n < (marksAt arr.position (s.markList a)).length := (List.getElem?_eq_some_iff.mp hn).1
  have hmem : m ∈ s.markList a := List.mem_of_mem_filter (List.mem_of_getElem? hn)
  have entered : ∀ busy count shot, Keeps R T
      (((s.pulseAction m.pulse).1.releaseAction m.release).1.fireRecord a arr m busy count shot)
      ((((s.pulseAction m.pulse).1.releaseAction m.release).1.fireRecord a arr m busy count shot).reposition a
        arr.position n m) := by
    intro busy count shot
    rcases (s.pulseAction m.pulse).1.releaseAction_markList m.release a with e | ⟨tag, e⟩
    · exact .reposition _ a (j := m) (by simpa [e] using hlt) (by simpa [e] using hmem) fun _ h => h
    · have hj : (if m.releasedBy tag exactMask then { m with armed := true } else m) ∈ armMatching tag exactMask (s.markList a) :=
        List.mem_map_of_mem hmem
      refine .reposition _ a (by simpa [e, marksAt_armMatching_length] using hlt) (by simpa [e] using hj) fun _ h => ?_
      split at h <;> exact h
  exact (((Keeps.pulseAction s m.pulse).trans (.releaseAction _ m.release)).trans (.fireRecord ..)).trans (entered ..)

/-- R49: the candidates considered one at a time. -/
theorem Keeps.considerMarks (a : AxisNo) (arr : Arrival) (flags : List Bool) (n : Nat) (s : State) :
    Keeps R T s (considerMarks a arr flags n s) := by
  induction flags generalizing n s with
  | nil => exact .refl s
  | cons f fs ih =>
    unfold Machine.considerMarks
    split
    · exact .refl s
    · next m hm =>
      split
      · exact (Keeps.fireMark s a arr hm).trans (ih ..)
      · exact ih ..

/-- R48, R49: an arrival. -/
theorem Keeps.takeArrival (a : AxisNo) (s : State) : Keeps R T s (takeArrival a s) := by
  unfold Machine.takeArrival
  split
  · exact .refl s
  · have taken : Keeps R T s (s.setAxis a { s.axis a with arrival := none }) :=
      .setAxis s a (fun hf => hf.congr rfl rfl rfl rfl rfl rfl rfl rfl) (.inl rfl) fun _ => ⟨rfl, Iff.rfl⟩
    exact taken.trans (.considerMarks ..)

/-- R72: the expiry of a pulse. -/
theorem Keeps.takePulseExpiry (n : TriggerNo) (s : State) : Keeps R T s (takePulseExpiry n s) := by
  unfold Machine.takePulseExpiry
  dsimp only
  split
  · exact .setOutput ..
  · exact .refl s

/-- R77, R78: a capture edge. -/
theorem Keeps.takeCaptureEdge (n : CaptureNo) (s : State) : Keeps R T s (takeCaptureEdge n s) := by
  unfold Machine.takeCaptureEdge makeCapture
  dsimp only
  split
  · exact .refl s
  · split
    · exact .refl s
    · split
      · split
        · exact .setCaptureLine ..
        · exact (Keeps.setCaptureLine ..).trans (.formRecord ..)
      · exact .setCaptureLine ..

/-- R80, R81: the release claim of a capture. -/
theorem Keeps.takeCaptureClaim (n : CaptureNo) (s : State) : Keeps R T s (takeCaptureClaim n s) := by
  unfold Machine.takeCaptureClaim
  dsimp only
  split
  · exact .refl s
  · exact ((Keeps.setCaptureLine ..).trans (.release ..)).trans (.formRecord ..)

/-- R82: the expiry of a holdoff. -/
theorem Keeps.takeHoldoffExpiry (n : CaptureNo) (s : State) : Keeps R T s (takeHoldoffExpiry n s) := by
  unfold Machine.takeHoldoffExpiry
  split
  · exact .setCaptureLine ..
  · exact .refl s

/-- R105, R106: a window expiry. -/
theorem Keeps.takeWindowExpiry (u : UnitNo) (s : State) : Keeps R T s (takeWindowExpiry u s) := by
  unfold Machine.takeWindowExpiry
  dsimp only
  split
  · exact .refl s
  · next stop _ =>
    split
    · next h =>
      obtain ⟨hmode, -⟩ := h
      have counted : Keeps R T s (s.setTallyUnit u { s.tallyUnit u with
          count := 0, timer := some (stop + (s.tallyUnit u).window * Config.periodsPerMilli) }) :=
        .setTallyUnit s u fun ⟨_, _, _, ht⟩ => ⟨by simp [hmode], by simp [hmode], by simp, ht⟩
      exact counted.trans (.offer ..)
    · exact .refl s

/-! ## The clock -/

/-- The next hand-over of one block. -/
theorem Keeps.takeNext (x : Agent) (s : State) (h : R ∨ s.line.due = none) : Keeps R T s (takeNext x s) := by
  unfold Machine.takeNext
  split
  · split
    · exact .takePattern ..
    · split
      · exact .takeArrival ..
      · split
        · exact .takeStep ..
        · exact .takeSkip ..
        · exact .takeIndex ..
  · split
    · exact .takeCaptureClaim ..
    · exact .takeCaptureEdge ..
  · exact .takeCharacter s h

end

end Sys2Proof.Machine

/-!
PROOF. What the hand-overs of a sample leave waiting (log entry 2): a fault, the end of homing, an index arrival and the marks of an
arrival hand nothing on themselves, so each hand-over takes what its block has and leaves the others theirs. The settling before a
sample and the passing of a clock period follow.
-/

namespace Sys2Proof.Machine

/-! ## What hands nothing on -/

/-- From `s` to `t` every hand-over that waits goes on waiting, and no other joins it. -/
structure SameHandOvers (s t : State) : Prop where
  decoders : t.decoders = s.decoders
  arrival : ∀ a, (t.axis a).arrival = (s.axis a).arrival
  captures : t.captures = s.captures
  line : t.line = s.line
  rx : t.rx = s.rx

namespace SameHandOvers
variable {s t u : State}

theorem refl (s : State) : SameHandOvers s s := ⟨rfl, fun _ => rfl, rfl, rfl, rfl⟩

theorem trans (h : SameHandOvers s t) (k : SameHandOvers t u) : SameHandOvers s u :=
  ⟨k.decoders.trans h.decoders, fun a => (k.arrival a).trans (h.arrival a), k.captures.trans h.captures, k.line.trans h.line,
    k.rx.trans h.rx⟩

theorem decoder (h : SameHandOvers s t) (a : AxisNo) : t.decoder a = s.decoder a := congrArg (fun v => v.get a) h.decoders

theorem captureLine (h : SameHandOvers s t) (n : CaptureNo) : t.captureLine n = s.captureLine n :=
  congrArg (fun v => v.get n) h.captures

theorem setAxis (s : State) (a : AxisNo) {x : Axis} (h : x.arrival = (s.axis a).arrival) : SameHandOvers s (s.setAxis a x) := by
  refine ⟨rfl, fun b => ?_, rfl, rfl, rfl⟩
  rw [s.axis_setAxis_eq]
  split
  · next hab => rw [h, hab]
  · rfl

theorem formRecord (s : State) (b : RecordBody) : SameHandOvers s (s.formRecord b) := ⟨rfl, fun _ => rfl, rfl, rfl, rfl⟩

theorem setMarkList (s : State) (a : AxisNo) (l : List Mark) : SameHandOvers s (s.setMarkList a l) :=
  ⟨rfl, fun _ => rfl, rfl, rfl, rfl⟩

theorem endDeferred (i : SlotNo) (st : Status) (l : List Byte) (s : State) : SameHandOvers s (endDeferred i st l s) := by
  rw [endDeferred_eq]
  exact ⟨rfl, fun _ => rfl, rfl, rfl, rfl⟩

theorem endHoming (s : State) (a : AxisNo) (h : Homing) (new : AxisState) (cause : StateCause) (st : Status)
    (l : List Byte) : SameHandOvers s (s.endHoming a h new cause st l) :=
  ((setAxis s a (x := { s.axis a with state := new, homing := none }) rfl).trans (formRecord ..)).trans (endDeferred ..)

theorem takeFault (a : AxisNo) (kind : FaultKind) (s : State) : SameHandOvers s (takeFault a kind s) := by
  have frozen := setAxis s a (x := { s.axis a with
    lastFault := some (kind, s.timebase), state := .faulted, homing := none, gateTimer := none, net := 0, lastSpeed := 0 }) rfl
  rw [takeFault_eq]
  split
  · exact (frozen.trans (formRecord ..)).trans (formRecord ..)
  · exact ((frozen.trans (formRecord ..)).trans (formRecord ..)).trans (endDeferred ..)

theorem judgeTravel (a : AxisNo) (s : State) : SameHandOvers s (judgeTravel a s) := by
  unfold Machine.judgeTravel
  split
  · split
    · exact endHoming ..
    · exact refl s
  · exact refl s

theorem reportIndex (s : State) (a : AxisNo) (drift : Option Int) (corrected : Bool) :
    SameHandOvers s (s.reportIndex a drift corrected) := by
  unfold State.reportIndex
  split
  · exact formRecord ..
  · exact refl s

theorem useIndex (a : AxisNo) (d : Direction) (s : State) : SameHandOvers s (useIndex a d s) := by
  have check : SameHandOvers s (checkIndex a s) := by
    unfold checkIndex
    dsimp only
    split
    · split
      · exact (reportIndex ..).trans (setAxis _ a rfl)
      · exact reportIndex ..
    · exact (reportIndex ..).trans (takeFault ..)
  unfold Machine.useIndex
  dsimp only
  split
  · exact reportIndex ..
  · split
    · exact check
    · exact reportIndex ..
  · split
    · exact refl s
    · split
      · exact (setAxis s a (x := { s.axis a with position := (s.axis a).config.homeOffset, turns := 0 }) rfl).trans (endHoming ..)
      · exact reportIndex ..
  · exact refl s
  · exact refl s

theorem considerMarks (a : AxisNo) (arr : Arrival) (flags : List Bool) (n : Nat) (s : State) :
    SameHandOvers s (considerMarks a arr flags n s) := by
  obtain ⟨_, _, _, e⟩ := considerMarks_frame a arr flags n s
  exact e ▸ ⟨rfl, fun _ => rfl, rfl, rfl, rfl⟩

end SameHandOvers

/-! ## What each hand-over takes -/

/-- R7: a pattern change taken is judged once. What it hands on is at most three results, and the other blocks have what they
had. -/
theorem takePattern_handOvers (a : AxisNo) (s : State) (h : (s.decoder a).patternDue = true) :
    ∃ d : Decoder, SameHandOvers (s.setDecoder a d) (takePattern a s) ∧ d.patternDue = false
      ∧ d.results.length ≤ (s.decoder a).results.length + 3 ∧ (d.zDue.isSome = true → (s.decoder a).zDue.isSome = true) := by
  have same : ∀ d : Decoder, SameHandOvers (s.setDecoder a d) (s.setDecoder a d) := fun d => .refl _
  unfold takePattern
  dsimp only
  rw [if_pos h]
  split
  · exact ⟨_, same _, rfl, by simp, id⟩
  · split
    · exact ⟨_, same _, rfl, by simp, id⟩
    · unfold Decoder.follow
      split <;> exact ⟨_, same _, rfl, by simp, id⟩
    all_goals
      split
      · exact ⟨_, same _, rfl, by simp, id⟩
      · exact ⟨_, same _, rfl, by simp, id⟩
      · exact ⟨_, same _, rfl, by simp, id⟩
      · exact ⟨_, same _, rfl, by simp, id⟩
      · exact ⟨_, .takeFault .., rfl, by simp, by simp⟩
      · exact ⟨_, .takeFault .., rfl, by simp, by simp⟩

/-- R48: an arrival taken is held no more. -/
theorem takeArrival_handOvers (a : AxisNo) (s : State) :
    SameHandOvers (s.setAxis a { s.axis a with arrival := none }) (takeArrival a s) := by
  unfold takeArrival
  split
  · next h =>
    rw [show ({ s.axis a with arrival := none } : Axis) = s.axis a by rw [← h], State.setAxis_self]
    exact .refl s
  · exact .considerMarks ..

/-- R24: a step taken is one result less, and one arrival at most. -/
theorem takeStep_handOvers {a : AxisNo} {s : State} {d : Direction} {i : Bool} {rest : List DecoderResult}
    (h : (s.decoder a).results = .step d i :: rest) (harr : (s.axis a).arrival = none) :
    ∃ x : Axis, SameHandOvers ((s.setDecoder a { s.decoder a with results := rest }).setAxis a x) (takeStep a s) := by
  unfold takeStep
  simp only [h, harr, Option.isSome_none, Bool.false_eq_true, if_false]
  split
  · split
    · exact ⟨_, .judgeTravel ..⟩
    · exact ⟨_, .refl _⟩
  · refine ⟨s.axis a, ?_⟩
    rw [show s.axis a = (s.setDecoder a { s.decoder a with results := rest }).axis a from rfl, State.setAxis_self]
    exact .refl _

/-- R13: a skip notice taken is one result less. -/
theorem takeSkip_handOvers {a : AxisNo} {s : State} {d : Direction} {rest : List DecoderResult}
    (h : (s.decoder a).results = .skip d :: rest) (harr : (s.axis a).arrival = none) :
    SameHandOvers (s.setDecoder a { s.decoder a with results := rest }) (takeSkip a s) := by
  unfold takeSkip
  simp only [h, harr, Option.isSome_none, Bool.false_eq_true, if_false]
  exact .formRecord ..

/-- R17, R18: an index edge judged waits no more. -/
theorem takeIndex_handOvers {a : AxisNo} {s : State} (hp : (s.decoder a).patternDue = false) (hr : (s.decoder a).results = [])
    (harr : (s.axis a).arrival = none) :
    SameHandOvers (s.setDecoder a { s.decoder a with zDue := none }) (takeIndex a s) := by
  unfold takeIndex
  dsimp only
  split
  · next h =>
    rw [show ({ s.decoder a with zDue := none } : Decoder) = s.decoder a by rw [← h], State.setDecoder_self]
    exact .refl s
  · simp only [hp, hr, harr, ne_eq, not_true_eq_false, Option.isSome_none, Bool.false_eq_true, or_self, if_false]
    split
    · split
      · exact (SameHandOvers.useIndex ..).trans (.judgeTravel ..)
      · exact .judgeTravel ..
    · exact .refl _

/-- R18, R48: a hand-over of an axis leaves RXD, the receiver and the capture lines. -/
theorem takeNext_axis_line (a : AxisNo) (s : State) :
    (takeNext (.axis a) s).line = s.line ∧ (takeNext (.axis a) s).rx = s.rx
      ∧ (takeNext (.axis a) s).captures = s.captures := by
  unfold takeNext
  dsimp only
  split
  · next h =>
    obtain ⟨d, k, -⟩ := takePattern_handOvers a s h
    exact ⟨k.line, k.rx, k.captures⟩
  next hp =>
  replace hp := Bool.eq_false_of_not_eq_true hp
  split
  · exact ⟨(takeArrival_handOvers a s).line, (takeArrival_handOvers a s).rx, (takeArrival_handOvers a s).captures⟩
  next harr =>
  replace harr := Option.not_isSome_iff_eq_none.mp harr
  split
  · next h =>
    obtain ⟨x, k⟩ := takeStep_handOvers h harr
    exact ⟨k.line, k.rx, k.captures⟩
  · next h => exact ⟨(takeSkip_handOvers h harr).line, (takeSkip_handOvers h harr).rx, (takeSkip_handOvers h harr).captures⟩
  · next h =>
    have k := takeIndex_handOvers hp h harr
    exact ⟨k.line, k.rx, k.captures⟩

/-- R80: a capture line's hand-overs: the edge that waits, or the capture that waits for its release. -/
theorem takeNext_capture_handOvers (n : CaptureNo) (s : State) :
    (∃ l : CaptureLine, SameHandOvers (s.setCaptureLine n l) (takeNext (.capture n) s)
      ∧ (if (s.captureLine n).waiting.isSome then l.waiting = none ∧ l.edgeDue = (s.captureLine n).edgeDue
         else l.edgeDue = none)) := by
  unfold takeNext
  dsimp only
  split
  · next hw =>
    unfold takeCaptureClaim
    dsimp only
    split
    · next h => simp [h] at hw
    · exact ⟨_, (SameHandOvers.setMarkList ..).trans (.formRecord ..), rfl, rfl⟩
  · next hw =>
    unfold takeCaptureEdge makeCapture
    dsimp only
    split
    · next h => exact ⟨s.captureLine n, by rw [State.setCaptureLine_self]; exact .refl s, h⟩
    · rw [if_neg hw]
      split
      · split
        · exact ⟨_, .refl _, rfl⟩
        · exact ⟨_, .formRecord .., rfl⟩
      · exact ⟨_, .refl _, rfl⟩

/-- A hand-over with no character due leaves RXD as it stands. -/
theorem takeNext_line {s : State} (x : Agent) (h : s.line.due = none) : (takeNext x s).line = s.line := by
  cases x with
  | axis a => exact (takeNext_axis_line a s).1
  | capture n =>
    obtain ⟨l, k, -⟩ := takeNext_capture_handOvers n s
    exact k.line
  | link => simp [takeNext, takeCharacter, h]

/-! ## Settling and the passing of clock periods -/

section
variable {R T : Prop}

theorem Keeps.settle (fuel : Nat) (s : State) (h : R ∨ s.line.due = none) : Keeps R T s (settle fuel s) := by
  have next_due : ∀ x (u : State), (R ∨ u.line.due = none) → (R ∨ (Machine.takeNext x u).line.due = none) := fun x u hu =>
    hu.imp id fun hd => by rw [takeNext_line x hd, hd]
  induction fuel generalizing s with
  | zero => exact .refl s
  | succ fuel ih =>
    unfold Machine.settle
    split
    · exact .refl s
    · exact (Keeps.takeNext _ s h).trans (ih _ (next_due _ s h))
    · have turn : R ∨ ({ s with picks := s.picks + 1 } : State).line.due = none := h
      exact ((Keeps.pick s _).trans (.takeNext _ _ turn)).trans (ih _ (next_due _ _ turn))

/-- Settling with no character due leaves RXD as it stands. -/
theorem settle_line (fuel : Nat) {s : State} (h : s.line.due = none) : (settle fuel s).line = s.line := by
  induction fuel generalizing s with
  | zero => rfl
  | succ fuel ih =>
    unfold settle
    split
    · rfl
    · have e := takeNext_line (s := s) ‹_› h
      rw [ih (by rw [e, h]), e]
    · next x rest _ _ =>
      have e := takeNext_line (s := { s with picks := s.picks + 1 })
        ((x :: rest).getD (Config.pickOrder s.picks % (x :: rest).length) x) h
      rw [ih (by rw [e, h]), e]

/-- 1.1: a clock period with a level at RXD. -/
theorem Keeps.period (s : State) (rxd : Option Bool) :
    Keeps R T s (({ s with clock := s.clock + 1 } : State).followRxd rxd) where
  pending := rfl
  timebase := fun _ => rfl
  records := fun _ => List.prefix_rfl
  delivery := id
  axes := id
  marks := id
  units := fun ⟨htally, hrx, hline⟩ => ⟨htally, hrx, (hline.later (Nat.le_succ _)).hear _ rxd⟩
  requests := id

theorem Keeps.passPeriod (rxd : Option Bool) (s : State) (h : R ∨ s.line.due = none) : Keeps R T s (passPeriod rxd s) :=
  ((Keeps.settle s.work s h).trans (.startRequest _)).trans (.period _ rxd)

/-- R125: without a change of level no character begins. -/
theorem LineReceiver.hear_none_idle {x : LineReceiver} (hc : x.char = none) (broken : Bool) (bit now : Nat) :
    (x.hear broken bit now none).char = none ∧ (x.hear broken bit now none).due = x.due := by
  unfold LineReceiver.hear
  cases hl : x.level with
  | none => exact ⟨hc, rfl⟩
  | some l =>
    dsimp only
    unfold LineReceiver.follow
    dsimp only
    split
    · exact ⟨hc, rfl⟩
    · have still : ¬ (x.wasHigh = true ∧ l.1 = false) := fun ⟨hw, hlow⟩ => by simp [LineReceiver.wasHigh, hl, hlow] at hw
      simp only [hc, if_neg still, and_self]

theorem Keeps.passPeriods (n : Nat) (s : State) (h : R ∨ (s.line.char = none ∧ s.line.due = none)) :
    Keeps R T s (passPeriods n s) := by
  induction n generalizing s with
  | zero => exact .refl s
  | succ n ih =>
    refine (Keeps.passPeriod none s (h.imp id And.right)).trans (ih _ (h.imp id fun ⟨hc, hd⟩ => ?_))
    have hline := settle_line s.work hd
    obtain ⟨h1, h2⟩ := LineReceiver.hear_none_idle (x := (Machine.settle s.work s).line) (by rw [hline, hc])
      (Machine.settle s.work s).rx.broken (bitPeriods (Machine.settle s.work s).straps) ((Machine.settle s.work s).clock + 1)
    exact ⟨h1, h2.trans (by rw [hline, hd])⟩

/-- R84: the timebase rises by 1. -/
theorem Keeps.takeTick (hT : T) (s : State) (h : R ∨ (s.line.char = none ∧ s.line.due = none)) : Keeps R T s (takeTick s) := by
  refine (Keeps.passPeriods s.missingPeriods s h).trans
    ⟨⟨rfl, fun hn => absurd hT hn, fun _ => List.prefix_rfl, id, id, id, id⟩, id⟩

/-- R1: a sample. -/
theorem Keeps.takeSample (sensors : BitVec 12) (lines : LinePins) (s : State) (h : R ∨ s.line.due = none) :
    Keeps R T s (takeSample sensors lines s) := by
  have axes : ∀ (l : List AxisNo) (u : State), Keeps R T u (l.foldl (sampleAxis sensors) u) := fun l => by
    induction l with
    | nil => exact fun u => .refl u
    | cons a l ih => exact fun u => ((Keeps.setSensorFilter u a _).trans (.setDecoder ..)).trans (ih _)
  have captures : ∀ (l : List CaptureNo) (u : State), Keeps R T u (l.foldl (sampleCapture lines.captures) u) := fun l => by
    induction l with
    | nil => exact fun u => .refl u
    | cons n l ih => exact fun u => ((Keeps.setCaptureFilter u n _).trans (.setCaptureLine ..)).trans (ih _)
  exact ((Keeps.passPeriod lines.rxd s h).trans (axes _ _)).trans (captures _ _)

end

end Sys2Proof.Machine

/-!
PROOF. What every request and every command keeps, and with it that every step keeps the accounts. They settle O2, O38, O55, O56, O57,
O58, O59 and O60.
-/

namespace Sys2Proof.Machine

/-! ## The request in execution -/

@[simp] theorem endDeferred_executing (i : SlotNo) (st : Status) (l : List Byte) (s : State) :
    (endDeferred i st l s).handler.executing = s.handler.executing := by
  rcases endDeferred_handler i st l s with ⟨-, e⟩ | ⟨d, -, e⟩ <;> rw [e]
  rfl

@[simp] theorem endDrain_executing (st : Status) (s : State) : (endDrain st s).handler.executing = s.handler.executing := by
  unfold endDrain
  split
  · rfl
  · exact endDeferred_executing ..

@[simp] theorem emptyEvent_executing (s : State) : (emptyEvent s).handler.executing = s.handler.executing := by
  unfold emptyEvent
  split
  · rfl
  · split
    · exact endDrain_executing ..
    · exact endDrain_executing ..

@[simp] theorem afterRemoval_executing (q : ReportQueue) (s : State) :
    (afterRemoval q s).handler.executing = s.handler.executing := by
  unfold afterRemoval
  split
  · exact emptyEvent_executing _
  · rfl

theorem closeSessionState_handler (s : State) : (closeSessionState s).handler = s.handler := by
  unfold closeSessionState
  split <;> rfl

section
variable {R T : Prop} {s t : State}

/-- A command that acts, and one that does not while RESETN is held low. -/
theorem Keeps.whenRunning {f : State → State} (e : whenRunning f s = .next t) (h : Keeps R T s (f s)) : Keeps R T s t := by
  rcases whenRunning_next e with ⟨-, rfl⟩ | ⟨-, rfl⟩
  · exact .refl _
  · exact h

/-- R147: an answer after operations that leave the executing request. -/
theorem Keeps.andAnswer {r : Request} (hex : s.handler.executing = some r) (k : Keeps R T s t)
    (hsame : t.handler.executing = s.handler.executing) (st : Status) (l : List Byte) : Keeps R T s (Machine.answer r st l t) :=
  k.trans (.answer (hsame.trans hex) st l)

/-- R145, R146: the executing request is judged by the handler and handed to its block. -/
theorem Keeps.executeAs (n : RequestName) {act : Request → State → State} (s : State)
    (hact : ∀ r u, u.handler.executing = some r → Keeps R T u (act r u)) : Keeps R T s (executeAs n act s) := by
  unfold Machine.executeAs
  split
  · exact .refl s
  next r hex =>
  split
  · split
    · exact (Keeps.startRequest s).trans (.answer hex ..)
    · exact (Keeps.startRequest s).trans (hact r _ hex)
  · exact .refl s

/-- R146: a request that names an axis. -/
theorem Keeps.executeOnAxis (n : RequestName) {act : AxisNo → Request → State → State} (s : State)
    (hact : ∀ a r u, u.handler.executing = some r → Keeps R T u (act a r u)) : Keeps R T s (executeOnAxis n act s) := by
  refine .executeAs n s fun r u hex => ?_
  split
  · exact .answer hex ..
  · exact hact _ r u hex

variable {r : Request}

/-! ## The axis requests -/

/-- R48: a request that may wait for an arrival. -/
theorem Keeps.afterArrival {act : AxisNo → Request → State → State} (a : AxisNo) (r : Request) (s : State)
    (hact : Keeps R T s (act a r s)) : Keeps R T s (afterArrival act a r s) := by
  unfold Machine.afterArrival
  split
  · exact .refl s
  · exact hact

/-- R22: CONFIGURE_AXIS. -/
theorem Keeps.configureAxis (a : AxisNo) (hex : s.handler.executing = some r) : Keeps R T s (configureAxis a r s) := by
  unfold Machine.configureAxis
  dsimp only
  split
  · exact .answer hex ..
  next hstate =>
  split
  · exact .answer hex ..
  next c hc =>
  split
  · exact .answer hex ..
  next hmod =>
  have hmodulus : ((s.axis a).configured c).config = c := by
    unfold Axis.configured
    split <;> rfl
  have taken : Keeps R T s (s.setAxis a ((s.axis a).configured c)) := by
    refine .setAxis s a (fun h => h.configured (not_not.mp hstate) (axisConfigOf_fits hc)) ?_ fun _ => ?_
    · rw [hmodulus]
      by_cases e : c.modulus = (s.axis a).config.modulus
      · exact .inl e
      · exact .inr (not_not.mp fun hl => hmod ⟨e, hl⟩)
    · unfold Axis.configured
      split <;> exact ⟨rfl, Iff.rfl⟩
  exact .andAnswer hex (taken.trans (.setSensorFilter ..)) rfl ..

/-- R27: ENABLE_AXIS. -/
theorem Keeps.enableAxis (a : AxisNo) (hex : s.handler.executing = some r) : Keeps R T s (enableAxis a r s) := by
  unfold Machine.enableAxis
  dsimp only
  split
  · exact .answer hex ..
  next hstate =>
  replace hstate : (s.axis a).state = .disabled := not_not.mp hstate
  split
  · next hp =>
    have hidle : (s.axis a).state ≠ .seeking := by simp [hstate]
    have enabled : Keeps R T s (s.setAxis a ((s.axis a).enabled s.clock (argInt r.args 1))) := by
      refine .setAxis s a (fun h => ?_) (.inl rfl) fun hs => ?_
      · have hnone := h.homing_none hidle
        exact (h.free (positionFits_of_inRange hp (argInt_inInt32 ..)) (t := 0) (by decide) (fun _ => rfl) hnone none _).congr rfl rfl
          rfl rfl rfl rfl rfl hnone.symm
      · have hnone : (s.axis a).homing = none := Option.not_isSome_iff_eq_none.mp (mt hs.mp hidle)
        exact ⟨by simp [Axis.homingSlot, hnone, Axis.enabled, Axis.startGate], by simp [hstate, Axis.enabled, Axis.startGate]⟩
    exact .andAnswer hex ((enabled.trans (.formRecord ..)).trans (.setDecoder ..)) rfl ..
  · exact .answer hex ..

/-- R28: DISABLE_AXIS. -/
theorem Keeps.disableAxis (a : AxisNo) (hex : s.handler.executing = some r) : Keeps R T s (disableAxis a r s) := by
  unfold Machine.disableAxis
  dsimp only
  split
  · exact .answer hex ..
  have rest : ∀ u : State, Keeps R T u
      ((u.formRecord (.state a (s.axis a).state .disabled .request)).setDecoder a (resetDecoder (s.decoder a))) :=
    fun u => (Keeps.formRecord ..).trans (.setDecoder ..)
  have hfits : (s.axis a).Fits → (({ s.axis a with state := .disabled, homing := none } : Axis).stopGate).Fits :=
    fun h => h.stop rfl _
  split
  · next hnone =>
    refine .andAnswer hex (.trans (.setAxis s a hfits (.inl rfl) fun hs => ?_) (rest _)) rfl ..
    rw [hnone] at hs
    exact ⟨by simp [Axis.homingSlot, hnone, Axis.stopGate], by simpa [Axis.stopGate] using hs⟩
  · next h hh =>
    exact .andAnswer hex (.endHome hh rfl (y := ({ s.axis a with state := .disabled, homing := none } : Axis).stopGate)
      (by simp [Axis.stopGate]) ((Steady.setAxis s a hfits (.inl rfl)).trans (rest _).toSteady) rfl rfl rfl ..)
      (endDeferred_executing ..) ..

/-- R39: CLEAR_FAULT. -/
theorem Keeps.clearFault (a : AxisNo) (hex : s.handler.executing = some r) : Keeps R T s (clearFault a r s) := by
  unfold Machine.clearFault
  dsimp only
  split
  · exact .answer hex ..
  next hstate =>
  replace hstate : (s.axis a).state = .faulted := not_not.mp hstate
  have cleared : Keeps R T s
      (s.setAxis a (Axis.startGate s.clock { s.axis a with state := .free, lastFault := none })) := by
    refine .setAxis s a (fun h => ?_) (.inl rfl) fun _ => ⟨rfl, by simp [hstate, Axis.startGate]⟩
    have hnone := h.homing_none (by simp [hstate])
    obtain ⟨-, hposition, hturns, hlinear, -⟩ := id h
    exact h.free hposition hturns hlinear hnone none _
  exact .andAnswer hex (cleared.trans (.formRecord ..)) rfl ..

/-- R29: SET_POSITION. -/
theorem Keeps.setPosition (a : AxisNo) (hex : s.handler.executing = some r) : Keeps R T s (setPosition a r s) := by
  unfold Machine.setPosition
  dsimp only
  split
  · exact .answer hex ..
  next reference _ =>
  have jump : positionInRange (s.axis a).config.modulus (argInt r.args 1) = true →
      (s.axis a).state = .free ∨ (s.axis a).state = .referenced →
      Keeps R T s (Machine.answer r .ok [] (jumpTo a (argInt r.args 1) reference s)) := by
    intro hp hstate
    have moved : (s.axis a).Fits → Axis.Fits { s.axis a with position := argInt r.args 1 } := fun h => by
      obtain ⟨-, -, hturns, hlinear, -⟩ := id h
      exact h.jump (positionFits_of_inRange hp (argInt_inInt32 ..)) hturns hlinear
    unfold jumpTo
    dsimp only
    split
    · next hfree =>
      obtain ⟨hfree, -⟩ := hfree
      have jumped : Keeps R T s
          (s.setAxis a { s.axis a with position := argInt r.args 1, state := .referenced }) := by
        refine .setAxis s a (fun h => ?_) (.inl rfl) fun _ => ⟨rfl, by simp [hfree]⟩
        exact ((moved h).counting (by simp [hfree, AxisState.counts]) rfl (new := .referenced) (by simp)).congr rfl rfl rfl rfl
          rfl rfl rfl (h.homing_none (by simp [hfree]))
      exact .andAnswer hex (jumped.trans (.formRecord ..)) rfl ..
    · exact .andAnswer hex (.setAxis s a moved (.inl rfl) fun _ => ⟨rfl, Iff.rfl⟩) rfl ..
  split
  · next hstate =>
    split
    · next hp => exact jump hp (.inl hstate)
    · exact .answer hex ..
  · next hstate =>
    split
    · next hp => exact jump hp (.inr hstate)
    · exact .answer hex ..
  all_goals exact .answer hex ..

/-- R41: QUERY_AXIS. -/
theorem Keeps.queryAxis (a : AxisNo) (hex : s.handler.executing = some r) : Keeps R T s (afterResults queryAxis a r s) := by
  unfold afterResults Machine.queryAxis
  split
  · exact .refl s
  · split
    · exact .andAnswer hex (.draw s (s.draws + 1)) rfl ..
    · exact .answer hex ..

/-- R30: HOME. -/
theorem Keeps.home (a : AxisNo) (hex : s.handler.executing = some r) : Keeps R T s (home a r s) := by
  unfold Machine.home
  dsimp only
  split
  · exact .answer hex ..
  next q _ =>
  split
  · exact .answer hex ..
  next hmode =>
  split
  · exact .answer hex ..
  split
  · exact .answer hex ..
  next hstate =>
  have hcounts : (s.axis a).state.counts = true ∧ (s.axis a).state ≠ .seeking := by
    cases e : (s.axis a).state <;> simp [e] at hstate <;> simp [AxisState.counts]
  exact ⟨((Steady.setAxis s a (fun h => h.home hcounts.1 (not_not.mp hmode) _) (.inl rfl)).trans
      (Keeps.formRecord ..).toSteady).trans (.setHandler ..),
    fun hs => hs.deferHome hex hcounts.2 (y := { s.axis a with state := .seeking, homing := some (s.startHoming a q r.slot) }) rfl rfl
      rfl rfl rfl⟩

/-! ## The mark requests -/

/-- 10.6: what the fields of an entry hold as they are read. -/
def RawMark.Fits (w : RawMark) : Prop :=
  InInt32 w.position ∧ (∀ n ∈ w.count, n ≤ 65535) ∧ ∀ p ∈ w.pitch, InInt32 p

/-- An optional field has what its reading gives. -/
theorem readOptional_some {α : Type} {size : Nat} {f : List Byte → α} {l : List Byte} {x : α}
    (h : (readOptional size f l).1 = some x) : ∃ k, x = f k := by
  unfold readOptional at h
  split at h
  · exact ⟨_, (Option.some.inj h).symm⟩
  · cases h

theorem readMark_fits (l : List Byte) : (readMark l).1.Fits := by
  refine ⟨argInt_inInt32 .., fun n hn => ?_, fun p hp => ?_⟩
  · obtain ⟨k, rfl⟩ := readOptional_some hn
    have := (arg16 k 0).isLt
    omega
  · obtain ⟨k, rfl⟩ := readOptional_some hp
    exact argInt_inInt32 ..

theorem readMarks_fits (n : Nat) (l : List Byte) : ∀ w ∈ readMarks n l, w.Fits := by
  induction n generalizing l with
  | zero => simp [readMarks]
  | succ n ih =>
    intro w hw
    rcases List.mem_cons.mp hw with rfl | hw
    · exact readMark_fits l
    · exact ih _ w hw

@[simp] theorem readMarks_length (n : Nat) (l : List Byte) : (readMarks n l).length = n := by
  induction n generalizing l with
  | zero => rfl
  | succ n ih => simp [readMarks, ih]

/-- R44: an entry that is valid gives a mark that can stand on the list. -/
theorem RawMark.judge_fits {w : RawMark} {m : Nat} {armed : Bool} {k : Mark} (hw : w.Fits) (h : w.judge m armed = some k) :
    k.Fits m := by
  obtain ⟨hposition, hcount, hpitch⟩ := hw
  unfold RawMark.judge at h
  split at h
  next q count pulse capture release report _ ec _ ea _ _ =>
    split at h
    · next hjudged =>
      obtain ⟨hp, hpitchFits, hactions⟩ := hjudged
      obtain rfl := Option.some.inj h
      refine ⟨positionFits_of_inRange hp hposition, fun n hn => ?_, fun hnone => ?_, fun p hp => ?_, hactions, fun x hx => ?_⟩
      · dsimp only at hn
        subst hn
        unfold countOf at ec
        split at ec
        · cases ec
        · cases ec
        · next k e =>
          simp only [Option.some.injEq, Firings.counted.injEq] at ec
          subst ec
          exact ⟨by omega, hcount _ e⟩
      · dsimp only at hnone ⊢
        simpa [pitchFits, hnone] using hpitchFits
      · dsimp only at hp
        rw [Option.mem_def] at hp
        simp only [pitchFits, hp, Bool.and_eq_true, bne_iff_ne, Bool.or_eq_true, beq_iff_eq, decide_eq_true_eq] at hpitchFits
        obtain ⟨⟨-, hne⟩, hsize⟩ := hpitchFits
        exact ⟨hne, hpitch p hp, fun hm => hsize.resolve_left hm⟩
      · dsimp only at hx
        rw [Option.mem_def] at hx
        subst hx
        unfold judgeOptional at ea
        split at ea
        · cases ea
        · next b _ =>
          split at ea
          · cases ea
          · next y ey =>
            obtain rfl : y = x := by simpa using ea
            unfold captureSetOf axisSetOf at ey
            split at ey
            · cases ey
            · next hb =>
              split at ey
              · next hlt =>
                obtain rfl := Option.some.inj ey
                intro hzero
                refine hb (BitVec.eq_of_toNat_eq ?_)
                have := congrArg BitVec.toNat hzero
                simp at this
                simp
                omega
              · cases ey
    · cases h
  · cases h

/-- R46: the marks of a request are those of its entries, one for each. -/
theorem judgeMarks_fits {m : Nat} {armed : Bool} {ws : List RawMark} {ms : List Mark} (hw : ∀ w ∈ ws, w.Fits)
    (h : judgeMarks m armed ws = some ms) : ms.length = ws.length ∧ ∀ k ∈ ms, k.Fits m := by
  induction ws generalizing ms with
  | nil =>
    obtain rfl := Option.some.inj h
    simp
  | cons w ws ih =>
    unfold judgeMarks at h
    split at h
    · next k ks hk hks =>
      obtain rfl := Option.some.inj h
      obtain ⟨hlen, hfits⟩ := ih (fun w hw' => hw w (List.mem_cons_of_mem _ hw')) hks
      refine ⟨by simp [hlen], fun j hj => ?_⟩
      rcases List.mem_cons.mp hj with rfl | hj
      · exact RawMark.judge_fits (hw w List.mem_cons_self) hk
      · exact hfits j hj
    · cases h

/-- R46: ADD_MARKS. -/
theorem Keeps.addMarks (hex : s.handler.executing = some r) : Keeps R T s (addMarks r s) := by
  unfold Machine.addMarks
  dsimp only
  split
  next a armed _ _ =>
    split
    · exact .answer hex ..
    split
    · exact .answer hex ..
    next ms hms =>
    obtain ⟨hlen, hfits⟩ := judgeMarks_fits (readMarks_fits _ _) hms
    rw [readMarks_length] at hlen
    split
    · exact .answer hex ..
    next hroom =>
    refine .andAnswer hex (.setMarkList s a fun ⟨_, hlists⟩ => ?_) rfl ..
    obtain ⟨hsorted, hold⟩ := hlists a
    exact ⟨by rw [insertMarks_length]; omega, insertMarks_sorted ms hsorted,
      fun k hk => (mem_insertMarks.mp hk).elim (hfits k) (hold k)⟩
  · exact .answer hex ..

/-- R60: REMOVE_MARKS. -/
theorem Keeps.removeMarks (hex : s.handler.executing = some r) : Keeps R T s (removeMarks r s) := by
  unfold Machine.removeMarks
  dsimp only
  split
  next a selector _ _ =>
    refine .andAnswer hex (.setMarkList s a fun ⟨_, hlists⟩ => ?_) rfl ..
    obtain ⟨hsorted, hold⟩ := hlists a
    exact ⟨(List.length_filter_le ..).trans (Nat.le_add_right ..), hsorted.filter _, fun k hk => hold k (List.mem_of_mem_filter hk)⟩
  · exact .answer hex ..

/-- R62: RELEASE_MARKS. -/
theorem Keeps.releaseMarks (hex : s.handler.executing = some r) : Keeps R T s (releaseMarks r s) := by
  unfold Machine.releaseMarks
  split
  · exact .answer hex ..
  · exact .andAnswer hex (.release ..) rfl ..

/-- R63: LIST_MARKS. -/
theorem Keeps.listMarks (hex : s.handler.executing = some r) : Keeps R T s (listMarks r s) := by
  unfold Machine.listMarks
  dsimp only
  split
  · exact .answer hex ..
  · split <;> exact .answer hex ..

/-! ## The requests of the lines and of the record former -/

/-- R75: CONFIGURE_OUTPUT. -/
theorem Keeps.configureOutput (hex : s.handler.executing = some r) : Keeps R T s (configureOutput r s) := by
  unfold Machine.configureOutput
  split
  · split
    · exact .answer hex ..
    · exact .andAnswer hex (.setOutput ..) rfl ..
  · exact .answer hex ..

/-- R74: PULSE_OUTPUT. -/
theorem Keeps.pulseOutput (hex : s.handler.executing = some r) : Keeps R T s (pulseOutput r s) := by
  unfold Machine.pulseOutput
  split
  · exact .answer hex ..
  · exact .andAnswer hex (.claimPulse ..) rfl ..

/-- R83: CONFIGURE_CAPTURE. -/
theorem Keeps.configureCapture (hex : s.handler.executing = some r) : Keeps R T s (configureCapture r s) := by
  unfold Machine.configureCapture
  split
  · split
    · exact .answer hex ..
    · exact .andAnswer hex ((Keeps.setCaptureLine ..).trans (.setCaptureFilter ..)) rfl ..
  · exact .answer hex ..

/-- R99: SET_FILTER. -/
theorem Keeps.setFilter (hex : s.handler.executing = some r) : Keeps R T s (setFilter r s) := by
  unfold Machine.setFilter
  split
  · exact .andAnswer hex (.setFilterEntry ..) rfl ..
  · exact .answer hex ..

/-- R100: READ_FILTER. -/
theorem Keeps.readFilter (hex : s.handler.executing = some r) : Keeps R T s (readFilter r s) := by
  unfold Machine.readFilter
  split <;> exact .answer hex ..

/-- R107: CONFIGURE_TALLY. -/
theorem Keeps.configureTally (hex : s.handler.executing = some r) : Keeps R T s (configureTally r s) := by
  unfold Machine.configureTally
  dsimp only
  split
  · split
    · next hfits =>
      have h32 := (arg32 r.args 2).isLt
      exact .andAnswer hex (.setTallyUnit _ _ fun _ => configuredTally_fits hfits (by omega)) rfl ..
    · exact .answer hex ..
  · exact .answer hex ..

/-- R108: READ_TALLY. -/
theorem Keeps.readTally (hex : s.handler.executing = some r) : Keeps R T s (readTally r s) := by
  unfold Machine.readTally
  dsimp only
  split
  next clear u _ _ =>
    split
    · refine .andAnswer hex (.setTallyUnit s u fun ⟨htimer, hcount, _, hthreshold⟩ => ?_) rfl ..
      exact ⟨htimer, fun hm => Nat.lt_of_le_of_lt (Nat.zero_le _) (hcount hm), Nat.zero_le _, hthreshold⟩
    · exact .answer hex ..
  · exact .answer hex ..

/-! ## The session requests -/

/-- R161: OPEN_SESSION. -/
theorem Keeps.openSession (hR : R) (hex : s.handler.executing = some r) : Keeps R T s (openSession r s) := by
  unfold Machine.openSession
  dsimp only
  split
  · exact .answer hex ..
  next hclosed =>
  replace hclosed : s.session.state = .closed := not_not.mp hclosed
  split
  · exact .answer hex ..
  next fresh _ =>
  split
  · next hrange =>
    have hwindow : 1 ≤ orDefault (arg8 r.args 0).toNat 4 ∧ orDefault (arg8 r.args 0).toNat 4 ≤ 16 := by
      simp only [sessionInRange, Bool.and_eq_true, decide_eq_true_eq] at hrange
      unfold orDefault
      split <;> omega
    have opened : ∀ n, n = 0 → SessionOk n (openedSession (arg8 r.args 0).toNat (arg16 r.args 1).toNat (arg8 r.args 3).toNat s.session) :=
      fun n e => by
        rw [e]
        exact .quiet hwindow rfl
    split
    · have discarded := Keeps.afterRemoval (T := T) hR s (q := s.reportQueue.discardAll s.timebase) (fun hq => hq.removeOldest ..)
        fun _ => opened _ (s.reportQueue.discardAll_outstanding s.timebase)
      exact .andAnswer hex discarded (afterRemoval_executing ..) ..
    · have taken := Keeps.setSession (R := R) (T := T) s fun hs => opened _ (hs.opened (by simp [hclosed]))
      exact .andAnswer hex taken rfl ..
  · exact .answer hex ..

/-- R169: CLOSE_SESSION. -/
theorem Keeps.closeSession (hex : s.handler.executing = some r) : Keeps R T s (closeSession r s) := by
  unfold Machine.closeSession
  dsimp only
  split
  · exact .answer hex ..
  · refine .andAnswer hex ((Keeps.closeSessionState s).trans (.endDrain ..)) ?_ ..
    rw [endDrain_executing, closeSessionState_handler]

/-- R152: DRAIN. -/
theorem Keeps.drain (hex : s.handler.executing = some r) : Keeps R T s (drain r s) := by
  unfold Machine.drain
  dsimp only
  split
  · exact .answer hex ..
  split
  · exact .answer hex ..
  split
  · exact .answer hex ..
  next hno =>
  split
  · exact .answer hex ..
  · exact ⟨.setHandler .., fun hs => hs.deferDrain hex (Option.not_isSome_iff_eq_none.mp hno) ..⟩

/-! ## The general requests -/

/-- R34, R154: an ABORT of one deferred request leaves every account but that of the requests. -/
theorem Steady.abortEntry (s : State) (d : Deferred) : Steady R T s (abortEntry s d) := by
  unfold Machine.abortEntry
  split
  · exact .endDeferred ..
  · split
    · next hseek =>
      exact ((Steady.setAxis s _ (fun h => h.counting (by simp [hseek, AxisState.counts]) rfl (by simp)) (.inl rfl)).trans
        (Keeps.formRecord ..).toSteady).trans (.endDeferred ..)
    · exact .endDeferred ..

/-- R154: a deferred request that an ABORT ends leaves the table, and the others stay. -/
theorem abortEntry_table (s : State) (d : Deferred) :
    (abortEntry s d).handler.table = s.handler.table.filter fun x => x.slot != d.slot := by
  have ended : ∀ (st : Status) (l : List Byte) (u : State), (endDeferred d.slot st l u).handler.table =
      u.handler.table.filter fun x => x.slot != d.slot := fun st l u => by
    rcases endDeferred_handler d.slot st l u with ⟨hno, e⟩ | ⟨d', -, e⟩ <;> rw [e]
    · exact (List.filter_eq_self.mpr fun x hx => by simpa using hno x hx).symm
    · rfl
  unfold abortEntry
  split
  · exact ended ..
  · rw [ended]
    split <;> rfl

@[simp] theorem abortEntry_executing (s : State) (d : Deferred) : (abortEntry s d).handler.executing = s.handler.executing := by
  unfold abortEntry
  split
  · exact endDeferred_executing ..
  · rw [endDeferred_executing]
    split <;> rfl

/-- R34, R154: an ABORT of a request that stands in the table. -/
theorem RequestsOk.abortEntry {d : Deferred} (hs : RequestsOk s) (hd : d ∈ s.handler.table) : RequestsOk (abortEntry s d) := by
  obtain ⟨⟨-, -, -, -, -, -, hdrains⟩, -, h3, h4⟩ := requestsOk_iff.mp hs
  unfold Machine.abortEntry
  split
  · next hkind =>
    have hdrain : s.handler.drain = some d := by
      obtain ⟨x, hx⟩ : ∃ x, s.handler.drain = some x :=
        Option.isSome_iff_exists.mp (List.find?_isSome.mpr ⟨d, hd, by simp [Deferred.isDrain, hkind]⟩)
      have hxm : x ∈ s.handler.table.filter Deferred.isDrain :=
        List.mem_filter.mpr ⟨List.mem_of_find?_eq_some hx, List.find?_some hx⟩
      have hdm : d ∈ s.handler.table.filter Deferred.isDrain := List.mem_filter.mpr ⟨hd, by simp [Deferred.isDrain, hkind]⟩
      obtain ⟨y, hy⟩ := List.length_eq_one_iff.mp (Nat.le_antisymm hdrains (List.length_pos_of_mem hdm))
      rw [hy, List.mem_singleton] at hxm hdm
      rw [hx, hxm, hdm]
    have := hs.endDrain .aborted
    rwa [Machine.endDrain, hdrain] at this
  · next a hkind =>
    have hslot := (h4 a d.slot).mpr ⟨d, hd, hkind, rfl⟩
    have hsome : (s.axis a).homing.isSome := by simpa [Axis.homingSlot] using congrArg Option.isSome hslot
    rw [if_pos ((h3 a).mp hsome)]
    exact hs.endHome (t := s.changeState a { s.axis a with state := .free, homing := none } .request) hslot rfl (by simp) rfl rfl
      rfl ..

/-- R154: the deferred requests of a tag, ended one after another. -/
theorem Keeps.abortEntries {l : List Deferred} (hl : l.Pairwise fun d e => d.slot ≠ e.slot) (s : State)
    (hmem : ∀ d ∈ l, d ∈ s.handler.table) : Keeps R T s (l.foldl abortEntry s) := by
  induction l generalizing s with
  | nil => exact .refl s
  | cons d l ih =>
    obtain ⟨hd, hl⟩ := List.pairwise_cons.mp hl
    refine Keeps.trans ⟨.abortEntry s d, fun hs => hs.abortEntry (hmem d List.mem_cons_self)⟩ (ih hl _ fun e he => ?_)
    rw [abortEntry_table]
    exact List.mem_filter.mpr ⟨hmem e (List.mem_cons_of_mem _ he), by simpa using (hd e he).symm⟩

/-- R154: an ABORT leaves every account but that of the requests, whatever the table holds. -/
theorem Steady.abortEntries (l : List Deferred) (s : State) :
    Steady R T s (l.foldl Machine.abortEntry s) ∧ (l.foldl Machine.abortEntry s).handler.executing = s.handler.executing := by
  induction l generalizing s with
  | nil => exact ⟨(Keeps.refl s).toSteady, rfl⟩
  | cons d l ih =>
    obtain ⟨h1, h2⟩ := ih (Machine.abortEntry s d)
    exact ⟨(Steady.abortEntry s d).trans h1, h2.trans (abortEntry_executing s d)⟩

/-- R154: ABORT. -/
theorem Keeps.abort (hex : s.handler.executing = some r) : Keeps R T s (abort r s) := by
  unfold Machine.abort
  dsimp only
  split
  · exact .answer hex ..
  · obtain ⟨hsteady, hexec⟩ := Steady.abortEntries (R := R) (T := T) (s.handler.deferredWith (arg8 r.args 0)) s
    refine .andAnswer hex ⟨hsteady, fun hs => ?_⟩ hexec ..
    obtain ⟨ok, -⟩ := requestsOk_iff.mp hs
    exact (Keeps.abortEntries (R := R) (T := T) ((List.pairwise_map.mp ok.table_nodup).sublist List.filter_sublist) s fun d hd =>
      List.mem_of_mem_filter hd).requests hs

/-- R156: RESET_DEVICE. -/
theorem Keeps.resetDevice (hex : s.handler.executing = some r) : Keeps R T s (resetDevice r s) := by
  have pending : Keeps R T s (s.setHandler { s.handler with mode := .resetPending }) :=
    ⟨.setHandler .., fun hs => hs.setHandler (k := { s.handler with mode := .resetPending }) hs.1 (fun _ => id) fun _ _ _ => Iff.rfl⟩
  exact .andAnswer hex pending rfl ..

/-- R151: STATUS. -/
theorem Keeps.status (hex : s.handler.executing = some r) : Keeps R T s (status r s) := by
  unfold Machine.status
  split
  · exact .answer hex ..
  · split
    · have cleared : Keeps R T s s.clearDiscarded :=
        .setRx s (x := { s.rx with discarded := 0 })
          (fun ⟨h1, h2, h3, h4, h5, _⟩ => ⟨h1, h2, h3, h4, h5, Nat.zero_le _⟩) rfl
      exact .andAnswer hex cleared rfl ..
    · exact .answer hex ..

/-- R146: a request with an unknown code. -/
theorem Keeps.unknownRequest (s : State) : Keeps R T s (unknownRequest s) := by
  unfold Machine.unknownRequest
  split
  · exact .refl s
  · next r hex =>
    split
    · exact (Keeps.startRequest s).trans (.answer hex ..)
    · exact .refl s

end

/-! ## Every command -/

/-- The commands that may remove records: an ACK, a NAK, bytes of the host, an OPEN_SESSION and a reset (O38). -/
def mayRemove (c : Instr) (s : State) : Prop :=
  match c with
  | .powerOn _ | .resetPin | .resetPinRelease _ | .frameCompletion _ | .ackFrame _ | .nakFrame _ | .rxdByte _ | .frameDiscard _
  | .gapTimerExpiry | .openSession => True
  | .sample _ _ | .timebaseTick => ¬(s.line.char = none ∧ s.line.due = none)
  | _ => False

/-- The commands that move the timebase: the tick and the resets (R84). -/
def mayTick (c : Instr) : Prop :=
  match c with
  | .powerOn _ | .resetPin | .resetPinRelease _ | .frameCompletion _ | .timebaseTick => True
  | _ => False

/-- What every command keeps. -/
theorem exec_keeps (c : Instr) {s t : State} (h : exec c s = .next t) : Keeps (mayRemove c s) (mayTick c) s t := by
  cases c with
  | powerOn pins =>
    obtain rfl := Host.Outcome.next.inj h
    exact .restart trivial trivial .powerOn pins false _ s
  | resetPin =>
    obtain rfl := Host.Outcome.next.inj h
    unfold holdReset
    split
    · exact .refl s
    · exact .restart trivial trivial .resetPin { straps := s.straps, rxd := none } true none s
  | resetPinRelease pins =>
    obtain rfl := Host.Outcome.next.inj h
    unfold releaseReset
    split
    · exact .restart trivial trivial .resetPin pins false _ s
    · exact .refl s
  | patternChange a => exact .whenRunning h (.takePattern a s)
  | step a => exact .whenRunning h (.takeStep a s)
  | skipNotice a => exact .whenRunning h (.takeSkip a s)
  | indexArrival a => exact .whenRunning h (.takeIndex a s)
  | arrivalEvaluation a => exact .whenRunning h (.takeArrival a s)
  | captureEdge n => exact .whenRunning h (.takeCaptureEdge n s)
  | captureReleaseClaim n => exact .whenRunning h (.takeCaptureClaim n s)
  | pulseExpiry n => exact .whenRunning h (.takePulseExpiry n s)
  | holdoffExpiry n => exact .whenRunning h (.takeHoldoffExpiry n s)
  | speedGateExpiry a => exact .whenRunning h (.takeGateExpiry a s)
  | homingTimerExpiry a => exact .whenRunning h (.takeHomingExpiry a s)
  | tallyWindowExpiry u => exact .whenRunning h (.takeWindowExpiry u s)
  | requestFrame tag code args => exact .whenRunning h (.takeFrame _ s (.inr (.inr rfl)))
  | ackFrame n => exact .whenRunning h (.takeFrame _ s (.inl trivial))
  | nakFrame n => exact .whenRunning h (.takeFrame _ s (.inl trivial))
  | frameDiscard cause => exact .whenRunning h (.takeDiscard trivial cause s)
  | wrongKindFrame kind body =>
    refine .whenRunning h ?_
    split
    · next hw => exact .takeFrame _ s (.inr (.inl hw))
    · exact .refl s
  | gapTimerExpiry => exact .whenRunning h (.takeGapExpiry trivial s)
  | breakDetected => exact .whenRunning h (.takeBreak s)
  | breakEnd => exact .whenRunning h (.takeBreakEnd s)
  | arbiterChoice => exact .whenRunning h (.takeArbiter s)
  | frameCompletion straps => exact .whenRunning h (.takeCompletion trivial trivial straps s)
  | ackTimerExpiry => exact .whenRunning h (.takeAckExpiry s)
  | drainTimerExpiry => exact .whenRunning h (.takeDrainExpiry s)
  | unknownRequest => exact .whenRunning h (.unknownRequest s)
  | identify => exact .whenRunning h (.executeAs _ s fun _ _ hex => .answer hex ..)
  | status => exact .whenRunning h (.executeAs _ s fun _ _ hex => .status hex)
  | time => exact .whenRunning h (.executeAs _ s fun _ _ hex => .answer hex ..)
  | configureAxis => exact .whenRunning h (.executeOnAxis _ s fun a r u hex => .afterArrival a r u (.configureAxis a hex))
  | enableAxis => exact .whenRunning h (.executeOnAxis _ s fun a r u hex => .afterArrival a r u (.enableAxis a hex))
  | disableAxis => exact .whenRunning h (.executeOnAxis _ s fun a _ _ hex => .disableAxis a hex)
  | clearFault => exact .whenRunning h (.executeOnAxis _ s fun a _ _ hex => .clearFault a hex)
  | setPosition => exact .whenRunning h (.executeOnAxis _ s fun a r u hex => .afterArrival a r u (.setPosition a hex))
  | queryAxis => exact .whenRunning h (.executeOnAxis _ s fun a _ _ hex => .queryAxis a hex)
  | home => exact .whenRunning h (.executeOnAxis _ s fun a _ _ hex => .home a hex)
  | addMarks => exact .whenRunning h (.executeAs _ s fun _ _ hex => .addMarks hex)
  | removeMarks => exact .whenRunning h (.executeAs _ s fun _ _ hex => .removeMarks hex)
  | releaseMarks => exact .whenRunning h (.executeAs _ s fun _ _ hex => .releaseMarks hex)
  | listMarks => exact .whenRunning h (.executeAs _ s fun _ _ hex => .listMarks hex)
  | configureOutput => exact .whenRunning h (.executeAs _ s fun _ _ hex => .configureOutput hex)
  | pulseOutput => exact .whenRunning h (.executeAs _ s fun _ _ hex => .pulseOutput hex)
  | configureCapture => exact .whenRunning h (.executeAs _ s fun _ _ hex => .configureCapture hex)
  | setFilter => exact .whenRunning h (.executeAs _ s fun _ _ hex => .setFilter hex)
  | readFilter => exact .whenRunning h (.executeAs _ s fun _ _ hex => .readFilter hex)
  | configureTally => exact .whenRunning h (.executeAs _ s fun _ _ hex => .configureTally hex)
  | readTally => exact .whenRunning h (.executeAs _ s fun _ _ hex => .readTally hex)
  | openSession => exact .whenRunning h (.executeAs _ s fun _ _ hex => .openSession trivial hex)
  | closeSession => exact .whenRunning h (.executeAs _ s fun _ _ hex => .closeSession hex)
  | drain => exact .whenRunning h (.executeAs _ s fun _ _ hex => .drain hex)
  | abort => exact .whenRunning h (.executeAs _ s fun _ _ hex => .abort hex)
  | resetDevice => exact .whenRunning h (.executeAs _ s fun _ _ hex => .resetDevice hex)
  | sample sensors lines => exact .whenRunning h (.takeSample sensors lines s ((Classical.em _).symm.imp id And.right))
  | timebaseTick =>
    have hchar : mayRemove .timebaseTick s ∨ (s.line.char = none ∧ s.line.due = none) := (Classical.em _).symm
    exact .whenRunning h (.takeTick trivial s hchar)
  | rxdByte b => exact .whenRunning h (.takeRxdByte trivial b s)

/-- What every step keeps: the accounts read no waiting command. -/
theorem step_keeps {A : State → Prop} (hpending : ∀ s l, A s → A { s with pending := l })
    (hexec : ∀ c s t, exec c s = .next t → A s → A t) {s t : State} (hs : A s) (h : step s = .next t) : A t := by
  unfold step at h
  split at h
  · exact Host.Outcome.next.inj h ▸ hs
  · exact hexec _ _ _ h (hpending s _ hs)

/-- Settles O55: every command keeps the account of delivery. -/
theorem stepsKeepTheDeliveryAccount : Obligations.StepsKeepTheDeliveryAccount :=
  fun _ _ hs h => step_keeps (fun _ _ h => h) (fun c _ _ e => (exec_keeps c e).delivery) hs h

/-- Settles O56: every command keeps the account of the axes. -/
theorem stepsKeepTheAxes : Obligations.StepsKeepTheAxes :=
  fun _ _ hs h => step_keeps (fun _ _ h => h) (fun c _ _ e => (exec_keeps c e).axes) hs h

/-- Settles O57: every command keeps the account of the marks. -/
theorem stepsKeepTheMarks : Obligations.StepsKeepTheMarks :=
  fun _ _ hs h => step_keeps (fun _ _ h => h) (fun c _ _ e => (exec_keeps c e).marks) hs h

/-- Settles O58: every command keeps the account of the requests. -/
theorem stepsKeepTheRequests : Obligations.StepsKeepTheRequests :=
  fun _ _ hs h => step_keeps (fun _ _ h => h) (fun c _ _ e => (exec_keeps c e).requests) hs h

/-- Settles O59: every command keeps the tally units and both parts of the receiver in order. -/
theorem stepsKeepTheUnits : Obligations.StepsKeepTheUnits :=
  fun _ _ hs h => step_keeps (fun _ _ h => h) (fun c _ _ e => (exec_keeps c e).units) hs h

/-- Settles O60: every account holds at the reset values. -/
theorem resetIsSafe : Obligations.ResetIsSafe :=
  ⟨deliveryOk_reset, axesOk_reset, marksOk_reset, requestsOk_reset, unitsOk_reset⟩

/-- Settles O2: every command keeps the queue of commands. -/
theorem commandsLeaveTheQueueOfCommands : Obligations.CommandsLeaveTheQueueOfCommands :=
  fun c _ _ h => (exec_keeps c h).pending

/-- Settles O38: no command but those that may remove records leaves out one that the queue holds. -/
theorem recordsHeldStay : Obligations.RecordsHeldStay := by
  unfold Obligations.RecordsHeldStay
  intro c s t h h1 h2 h3 h4 h5 h6 h7 h8 h9 h10 hline
  refine (exec_keeps c h).records fun hremoves => ?_
  cases c with
  | powerOn pins => exact h1 pins rfl
  | resetPin => exact h2 rfl
  | resetPinRelease pins => exact h3 pins rfl
  | frameCompletion straps => exact h4 straps rfl
  | ackFrame n => exact h5 n rfl
  | nakFrame n => exact h6 n rfl
  | rxdByte b => exact h7 b rfl
  | frameDiscard cause => exact h8 cause rfl
  | gapTimerExpiry => exact h9 rfl
  | openSession => exact h10 rfl
  | sample sensors lines => exact hremoves (hline (.inl ⟨sensors, lines, rfl⟩))
  | timebaseTick => exact hremoves (hline (.inr rfl))
  | _ => exact hremoves

end Sys2Proof.Machine

/-!
PROOF. What leaves the state as it stands: every command whose step has nothing to take (log entries 1, 2, 4, 8, 15). They settle O1
and O3.
-/

namespace Sys2Proof.Machine

/-- Settles O1: `step` runs the front command, and every arm of `exec` answers a next state. -/
theorem stepRunsTheFrontCommand : Obligations.StepRunsTheFrontCommand := by
  refine ⟨fun c rest s h => by simp only [step, h], fun c s => ?_⟩
  cases c <;> exact ⟨_, rfl⟩

section
variable {s : State}

/-- A command that finds nothing to take. -/
theorem whenRunning_idle {f : State → State} (h : Running s) (e : f s = s) : whenRunning f s = .next s := by
  rw [whenRunning_running h, e]

/-! ## The machine side -/

theorem takePattern_idle {a : AxisNo} (h : (s.decoder a).patternDue = false) : takePattern a s = s := by
  simp [takePattern, h]

theorem takeStep_idle {a : AxisNo} (h : (∀ d i, (s.decoder a).results.head? ≠ some (.step d i)) ∨ (s.axis a).arrival.isSome) :
    takeStep a s = s := by
  unfold takeStep
  dsimp only
  split
  · next d i _ hr =>
    rw [if_pos (h.resolve_left fun hn => hn d i (by simp [hr]))]
  · rfl

theorem takeSkip_idle {a : AxisNo} (h : (∀ d, (s.decoder a).results.head? ≠ some (.skip d)) ∨ (s.axis a).arrival.isSome) :
    takeSkip a s = s := by
  unfold takeSkip
  dsimp only
  split
  · next d _ hr =>
    rw [if_pos (h.resolve_left fun hn => hn d (by simp [hr]))]
  · rfl

theorem takeIndex_idle {a : AxisNo} (h : (s.decoder a).zDue = none ∨ (s.decoder a).patternDue = true ∨ (s.decoder a).results ≠ []
    ∨ (s.axis a).arrival.isSome) : takeIndex a s = s := by
  unfold takeIndex
  dsimp only
  split
  · rfl
  · next e hz =>
    rw [if_pos (h.resolve_left (by simp [hz]))]

theorem takeArrival_idle {a : AxisNo} (h : (s.axis a).arrival = none) : takeArrival a s = s := by
  simp [takeArrival, h]

theorem takeCaptureEdge_idle {n : CaptureNo} (h : (s.captureLine n).edgeDue = none ∨ (s.captureLine n).waiting.isSome) :
    takeCaptureEdge n s = s := by
  unfold takeCaptureEdge
  dsimp only
  split
  · rfl
  · next e he => rw [if_pos (h.resolve_left (by simp [he]))]

theorem takeCaptureClaim_idle {n : CaptureNo} (h : (s.captureLine n).waiting = none) : takeCaptureClaim n s = s := by
  simp [takeCaptureClaim, h]

theorem takePulseExpiry_idle {n : TriggerNo} (h : (s.output n).mode = .toggle ∨ (s.output n).active = false
    ∨ (s.output n).pulseEnd = none) : takePulseExpiry n s = s := by
  unfold takePulseExpiry
  rw [if_neg]
  rintro ⟨hmode, hactive, hreached⟩
  rcases h with h | h | h
  · simp [h] at hmode
  · simp [h] at hactive
  · simp [h, State.reached] at hreached

theorem takeHoldoffExpiry_idle {n : CaptureNo} (h : (s.captureLine n).holdoffEnd = none) : takeHoldoffExpiry n s = s := by
  simp [takeHoldoffExpiry, h, State.reached]

theorem takeGateExpiry_idle {a : AxisNo} (h : (s.axis a).gateTimer = none) : takeGateExpiry a s = s := by
  simp [takeGateExpiry, h]

theorem takeHomingExpiry_idle {a : AxisNo} (h : (s.axis a).homing = none ∨ ∃ h, (s.axis a).homing = some h ∧ h.timer = none) :
    takeHomingExpiry a s = s := by
  rcases h with h | ⟨h, hh, ht⟩
  · simp [takeHomingExpiry, h]
  · simp [takeHomingExpiry, hh, ht, State.reached]

theorem takeWindowExpiry_idle {u : UnitNo} (h : (s.tallyUnit u).mode ≠ .window ∨ (s.tallyUnit u).timer = none) :
    takeWindowExpiry u s = s := by
  unfold takeWindowExpiry
  dsimp only
  split
  · rfl
  · next stop ht => rw [if_neg fun hw => (h.resolve_right (by simp [ht])) hw.1]

/-! ## The host link -/

theorem takeGapExpiry_idle (h : s.rx.state = .hunt ∨ s.rx.gap = none
    ∨ ∃ stop, s.rx.gap = some stop ∧ ((∃ c ∈ s.line.char, c.edge < stop) ∨ ∃ d ∈ s.line.due, d.2 < stop)) : takeGapExpiry s = s := by
  unfold takeGapExpiry
  split
  · rfl
  · next stop hgap =>
    rw [if_neg]
    rintro ⟨hstate, -, hstarted⟩
    simp only [State.startedBefore, Bool.or_eq_false_iff, Option.any_eq_false, decide_eq_false_iff_not] at hstarted
    obtain ⟨hchar, hdue⟩ := hstarted
    rcases h with h | h | ⟨stop', hgap', h⟩
    · exact hstate h
    · simp [h] at hgap
    · obtain rfl : stop = stop' := Option.some.inj (hgap.symm.trans hgap')
      rcases h with ⟨c, hc, hlt⟩ | ⟨d, hd, hlt⟩
      · exact hchar c hc hlt
      · exact hdue d hd hlt

/-- A character can be handed on: RXD has not been seen, or it is the one due. -/
theorem State.comes_iff {c : Character} : s.comes c = true ↔ s.line.level = none ∨ ∃ edge, s.line.due = some (c, edge) := by
  simp [State.comes, Option.map_eq_some_iff]

/-- No character of a kind can be handed on. -/
theorem State.comes_eq_false {c : Character} (h : s.line.level ≠ none ∧ ∀ edge, s.line.due ≠ some (c, edge)) :
    s.comes c = false := by
  obtain ⟨hlevel, hdue⟩ := h
  exact Bool.eq_false_iff.mpr fun hc => (State.comes_iff.mp hc).elim hlevel fun ⟨edge, he⟩ => hdue edge he

theorem takeRxdByte_idle {b : Byte} (h : s.rx.broken = true ∨ (s.line.level ≠ none ∧ ∀ edge, s.line.due ≠ some (.byte b, edge))) :
    takeRxdByte b s = s := by
  rcases h with h | h
  · simp [takeRxdByte, h]
  · simp [takeRxdByte, State.comes_eq_false h]

theorem takeDiscard_error_idle (h : s.rx.broken = true ∨ (s.line.level ≠ none ∧ ∀ edge, s.line.due ≠ some (.error, edge))) :
    takeDiscard .characterError s = s := by
  rcases h with h | h
  · simp [takeDiscard, h]
  · simp [takeDiscard, State.comes_eq_false h]

/-- When a whole frame can come as one command (log entry 8). -/
theorem State.takesFrames_iff : s.takesFrames = true ↔ s.rx.broken = false ∧ s.line.level = none ∧ s.rx.state = .hunt := by
  simp [State.takesFrames, and_assoc]

theorem State.takesFrames_eq_false (h : s.rx.broken = true ∨ s.line.level ≠ none ∨ s.rx.state ≠ .hunt) :
    s.takesFrames = false := by
  refine Bool.eq_false_iff.mpr fun hf => ?_
  obtain ⟨hb, hl, hs⟩ := State.takesFrames_iff.mp hf
  simp [hb, hl, hs] at h

theorem takeFrame_idle (f : Frame) (h : s.takesFrames = false) : takeFrame f s = s := by
  simp [takeFrame, h]

theorem takeDiscard_damaged_idle (held : List Byte) (h : s.takesFrames = false) : takeDiscard (.damaged held) s = s := by
  simp [takeDiscard, h]

theorem State.rxdHeld_eq_false {v : Bool} (h : ∃ w since, s.line.level = some (w, since) ∧ (w ≠ v ∨ s.clock < since + 20000)) :
    s.rxdHeld v = false := by
  obtain ⟨w, since, hlevel, h⟩ := h
  refine Bool.eq_false_iff.mpr fun hheld => ?_
  simp only [State.rxdHeld, hlevel, Bool.and_eq_true, beq_iff_eq, Config.periodsPerMilli] at hheld
  obtain ⟨hv, ht⟩ := hheld
  rcases h with h | h
  · exact h hv
  · exact absurd (of_decide_eq_true ht) (Nat.not_le.mpr h)

theorem takeBreak_idle (h : s.rx.broken = true
    ∨ ∃ v since, s.line.level = some (v, since) ∧ (v = true ∨ s.clock < since + 20000)) : takeBreak s = s := by
  unfold takeBreak
  exact if_pos (h.imp id fun ⟨v, since, hl, hv⟩ => State.rxdHeld_eq_false ⟨v, since, hl, hv.imp (by simp) id⟩)

theorem takeBreakEnd_idle (h : s.rx.broken = false
    ∨ ∃ v since, s.line.level = some (v, since) ∧ (v = false ∨ s.clock < since + 20000)) : takeBreakEnd s = s := by
  unfold takeBreakEnd
  refine if_neg ?_
  rintro ⟨hb, hheld⟩
  rcases h with h | ⟨v, since, hl, hv⟩
  · simp [h] at hb
  · rw [State.rxdHeld_eq_false ⟨v, since, hl, hv.imp (by simp) id⟩] at hheld
    cases hheld

theorem takeArbiter_idle (h : s.tx.frame.isSome) : takeArbiter s = s := by
  simp [takeArbiter, h]

theorem takeCompletion_idle (straps : BitVec 2) (h : s.tx.frame = none) : takeCompletion straps s = s := by
  simp [takeCompletion, h]

/-! ## The request handler -/

/-- Without a request to execute no request is judged. -/
theorem executeAs_idle (n : RequestName) (act : Request → State → State) (h : s.handler.startNext.executing = none) :
    executeAs n act s = s := by
  simp [executeAs, State.startRequest, h]

/-- A request that another command executes is not judged. -/
theorem executeAs_other {n : RequestName} (act : Request → State → State) {r : Request}
    (h : s.handler.startNext.executing = some r) (hn : requestOf r.code ≠ some n) : executeAs n act s = s := by
  simp [executeAs, State.startRequest, h, hn]

theorem unknownRequest_idle (h : s.handler.startNext.executing = none) : unknownRequest s = s := by
  simp [unknownRequest, State.startRequest, h]

theorem unknownRequest_known {r : Request} (h : s.handler.startNext.executing = some r) (hn : requestOf r.code ≠ none) :
    unknownRequest s = s := by
  simp [unknownRequest, State.startRequest, h, hn]

/-- R146: the command that executes a request hands it to the handler's judgement, and then to its owning block. -/
theorem RequestName.exec_command (n : RequestName) : ∃ act, ∀ s, exec n.command s = whenRunning (executeAs n act) s := by
  cases n <;> exact ⟨_, fun _ => rfl⟩

end

/-- Settles O3: in each clause the guard of the step is not met. -/
theorem commandsWithNothingToTakeDoNothing : Obligations.CommandsWithNothingToTakeDoNothing := by
  intro s a n line u b straps hrun
  refine ⟨fun h => whenRunning_idle hrun (takePattern_idle h), fun h => whenRunning_idle hrun (takeStep_idle h),
    fun h => whenRunning_idle hrun (takeSkip_idle h), fun h => whenRunning_idle hrun (takeIndex_idle h),
    fun h => whenRunning_idle hrun (takeArrival_idle h), fun h => whenRunning_idle hrun (takeCaptureEdge_idle h),
    fun h => whenRunning_idle hrun (takeCaptureClaim_idle h), fun h => whenRunning_idle hrun (takePulseExpiry_idle h),
    fun h => whenRunning_idle hrun (takeHoldoffExpiry_idle h), fun h => whenRunning_idle hrun (takeGateExpiry_idle h),
    fun h => whenRunning_idle hrun (takeHomingExpiry_idle h), fun h => whenRunning_idle hrun (takeWindowExpiry_idle h),
    fun h => whenRunning_idle hrun (takeGapExpiry_idle h), fun h => whenRunning_idle hrun (takeRxdByte_idle h),
    fun h => whenRunning_idle hrun (takeDiscard_error_idle h), fun h tag code args seq kind held => ?frames,
    fun h => whenRunning_idle hrun (takeBreak_idle h), fun h => whenRunning_idle hrun (takeBreakEnd_idle h),
    fun h => whenRunning_idle hrun (takeArbiter_idle h), fun h => whenRunning_idle hrun (takeCompletion_idle straps h),
    fun h => ⟨whenRunning_idle hrun (unknownRequest_idle h), fun k => ?none⟩,
    fun r h => ⟨fun hk => whenRunning_idle hrun (unknownRequest_known h hk), fun k hk => ?other⟩⟩
  case frames =>
    have hno := State.takesFrames_eq_false h
    refine ⟨whenRunning_idle hrun (takeFrame_idle _ hno), whenRunning_idle hrun (takeFrame_idle _ hno),
      whenRunning_idle hrun (takeFrame_idle _ hno), whenRunning_idle hrun ?_, whenRunning_idle hrun (takeDiscard_damaged_idle _ hno)⟩
    rw [takeFrame_idle _ hno, ite_self]
  case none =>
    obtain ⟨act, e⟩ := k.exec_command
    rw [e, whenRunning_idle hrun (executeAs_idle k act h)]
  case other =>
    obtain ⟨act, e⟩ := k.exec_command
    rw [e, whenRunning_idle hrun (executeAs_other act h hk)]

end Sys2Proof.Machine

/-!
PROOF. The resets (R4, R125, R126, R139, R157): every block at its reset values, RXD at the level it shows. They settle O4.
-/

namespace Sys2Proof.Machine

/-- The state that a reset leaves, but for what stands of the model's own counts, the straps and the transmitter. -/
def resetState (low : Bool) (straps : BitVec 2) (rxd : Option Bool) (announce : Option AnnounceCause) (s : State) : State :=
  { State.reset with
    pending := s.pending, draws := s.draws, picks := s.picks, resetLow := low, straps := straps
    line := LineReceiver.showing 0 rxd, tx := { frame := none, announce := announce, tail := none } }

theorem restart_eq_resetState (cause : AnnounceCause) (pins : ResetPins) (s : State) :
    restart cause pins s = resetState false pins.straps pins.rxd (some cause) s := rfl

/-- After a reset every block holds the reset values that the spec states. -/
theorem resetValues_resetState (low : Bool) (straps : BitVec 2) (rxd : Option Bool) (announce : Option AnnounceCause) (s : State) :
    ResetValues (resetState low straps rxd announce s) := by
  refine ⟨fun a i => ?filters, fun n => ?captureFilters, fun a => ?decoders, fun a => ?axes, fun a => ?marks, fun n => ?outputs,
    fun n => ?captures, rfl, fun e => ?entries, fun u => ?units, rfl, rfl, rfl, fun l hl => ?level, rfl, rfl, fun i => ?slots, rfl, rfl,
    rfl, rfl, rfl, rfl⟩
  case filters => fin_cases a <;> fin_cases i <;> rfl
  case captureFilters => fin_cases n <;> rfl
  case decoders => fin_cases a <;> exact ⟨rfl, rfl⟩
  case axes => fin_cases a <;> exact ⟨rfl, rfl, rfl, rfl, rfl, rfl, rfl⟩
  case marks => fin_cases a <;> rfl
  case outputs => fin_cases n <;> rfl
  case captures => fin_cases n <;> exact ⟨rfl, rfl, rfl, rfl, rfl, rfl⟩
  case entries => fin_cases e <;> rfl
  case units => fin_cases u <;> rfl
  case slots => fin_cases i <;> rfl
  case level =>
    obtain ⟨v, -, rfl⟩ := Option.map_eq_some_iff.mp hl
    rfl

@[simp] theorem resetState_level (low : Bool) (straps : BitVec 2) (rxd : Option Bool) (announce : Option AnnounceCause) (s : State) :
    (resetState low straps rxd announce s).line.level.map Prod.fst = rxd := by
  cases rxd <;> rfl

/-- While RESETN is low no command but a reset acts (log entry 6). -/
theorem whenRunning_low {f : State → State} {s : State} (h : s.resetLow = true) : whenRunning f s = .next s := by
  simp [whenRunning, h]

/-- R135, R157: the reply of a RESET_DEVICE completes, and the reset takes effect. -/
theorem takeCompletion_reset {straps : BitVec 2} {s : State} {f : Sending} {i : SlotNo} {r : Reply} (hf : s.tx.frame = some f)
    (hsource : f.source = .reply i) (hend : f.ends s.straps ≤ s.clock) (hmode : s.handler.mode = .resetPending)
    (hslot : s.handler.slots.get i = .completed r) (hcode : r.code = 0x61) (hstatus : r.status = .ok) :
    takeCompletion straps s = resetState false straps (s.line.level.map Prod.fst) (some .resetRequest) s := by
  have hreply : s.handler.resetReply i = true := by
    simp [Handler.resetReply, hmode, hslot, hcode, hstatus, RequestName.code]
  simp only [takeCompletion, hf, if_neg (Nat.not_lt.mpr hend), hsource, hreply, if_true]
  rfl

/-- Settles O4: each reset leaves `resetState`, whose blocks hold the reset values. -/
theorem resetsLeaveTheResetValues : Obligations.ResetsLeaveTheResetValues := by
  refine ⟨fun pins s => ⟨_, rfl, resetValues_resetState .., rfl, rfl, rfl, resetState_level ..⟩, fun s hrun => ?pin,
    fun pins s hlow => ?release, fun straps s f i r hrun hf hsource hend hmode hslot hcode hstatus => ?request,
    resetValues_resetState false 0 none (some .powerOn) State.reset, rfl, fun c s hlow hpower hrelease => ?held⟩
  case pin =>
    refine ⟨resetState true s.straps none none s, ?_, resetValues_resetState .., rfl, rfl, rfl, fun n => rfl, rfl⟩
    have : s.resetLow = false := hrun
    simp only [exec, execResetPin, holdReset, this, Bool.false_eq_true, if_false]
    rfl
  case release =>
    refine ⟨resetState false pins.straps pins.rxd (some .resetPin) s, ?_, resetValues_resetState .., rfl, rfl, rfl,
      resetState_level ..⟩
    simp only [exec, execResetPinRelease, releaseReset, hlow, if_true]
    rfl
  case request =>
    refine ⟨resetState false straps (s.line.level.map Prod.fst) (some .resetRequest) s, ?_, resetValues_resetState .., rfl, rfl, rfl,
      resetState_level ..⟩
    exact (whenRunning_running hrun).trans (congrArg _ (takeCompletion_reset hf hsource hend hmode hslot hcode hstatus))
  case held =>
    cases c with
    | powerOn pins => exact absurd rfl (hpower pins)
    | resetPinRelease pins => exact absurd rfl (hrelease pins)
    | resetPin => simp only [exec, execResetPin, holdReset, hlow, if_true]
    | _ => exact whenRunning_low hlow

end Sys2Proof.Machine

/-!
PROOF. A sample at the filters (R1, R4, R6, R7) and the passing of clock periods (R84, log entry 4). They settle O6 and O30.
-/

namespace Sys2Proof.Machine

/-! ## The sample at the filters -/

/-- R1, R7: what the sample leaves of the three filters of an axis, and of its decoder. -/
def State.axisSampled (s : State) (levels : BitVec 12) (a : AxisNo) : Vector Filter 3 × Decoder :=
  let c := (s.axis a).config
  let f := s.sensorFilter a
  let ra := (f.get 0).sample c.depth (levels.getLsbD (3 * a.val))
  let rb := (f.get 1).sample c.depth (levels.getLsbD (3 * a.val + 1))
  let rz := (f.get 2).sample c.depth (levels.getLsbD (3 * a.val + 2))
  (#v[ra.1, rb.1, rz.1],
    { s.decoder a with
      patternDue := ra.2.isSome || rb.2.isSome || (c.mode == .hall3 && rz.2.isSome)
      zDue := if c.mode = .quadIndex then rz.2 else none })

theorem sampleAxis_eq (levels : BitVec 12) (s : State) (a : AxisNo) :
    sampleAxis levels s a = (s.setSensorFilter a (s.axisSampled levels a).1).setDecoder a (s.axisSampled levels a).2 := rfl

/-- The sample of an axis reads its configuration, its filters and its decoder. -/
theorem State.axisSampled_congr {s t : State} {a : AxisNo} (haxis : t.axis a = s.axis a)
    (hfilter : t.sensorFilter a = s.sensorFilter a) (hdecoder : t.decoder a = s.decoder a) (levels : BitVec 12) :
    t.axisSampled levels a = s.axisSampled levels a := by
  simp only [State.axisSampled, haxis, hfilter, hdecoder]

/-- R1, R6: what the sample leaves of the filter of a capture line, and of the line. -/
def State.captureSampled (s : State) (levels : BitVec 4) (n : CaptureNo) : Filter × CaptureLine :=
  let r := (s.captureFilter n).sample (s.captureLine n).depth (levels.getLsbD n.val)
  (r.1, { s.captureLine n with edgeDue := r.2 })

theorem sampleCapture_eq (levels : BitVec 4) (s : State) (n : CaptureNo) :
    sampleCapture levels s n =
      (s.setCaptureFilter n (s.captureSampled levels n).1).setCaptureLine n (s.captureSampled levels n).2 := rfl

/-- The sample of a capture line reads the line and its filter. -/
theorem State.captureSampled_congr {s t : State} {n : CaptureNo} (hfilter : t.captureFilter n = s.captureFilter n)
    (hline : t.captureLine n = s.captureLine n) (levels : BitVec 4) : t.captureSampled levels n = s.captureSampled levels n := by
  simp only [State.captureSampled, hfilter, hline]

/-- The sample of several axes reaches their filters and decoders, each by what it was, and nothing else. -/
theorem foldl_sampleAxis (levels : BitVec 12) {l : List AxisNo} (hl : l.Nodup) (s : State) :
    ∃ filters decoders, l.foldl (sampleAxis levels) s = { s with sensorFilters := filters, decoders := decoders }
      ∧ ∀ a, (filters.get a, decoders.get a) = if a ∈ l then s.axisSampled levels a else (s.sensorFilter a, s.decoder a) := by
  induction l generalizing s with
  | nil => exact ⟨_, _, rfl, fun a => rfl⟩
  | cons b l ih =>
    obtain ⟨hb, hl⟩ := List.nodup_cons.mp hl
    obtain ⟨filters, decoders, e, hget⟩ := ih hl (sampleAxis levels s b)
    refine ⟨filters, decoders, by rw [List.foldl_cons, e, sampleAxis_eq]; rfl, fun a => ?_⟩
    rw [hget a, sampleAxis_eq]
    by_cases hab : b = a
    · subst hab
      simp [hb]
    · have hfilter := State.sensorFilter_setSensorFilter_ne s (s.axisSampled levels b).1 hab
      have hdecoder := State.decoder_setDecoder_ne (s.setSensorFilter b (s.axisSampled levels b).1) (s.axisSampled levels b).2 hab
      have sampled : ((s.setSensorFilter b (s.axisSampled levels b).1).setDecoder b (s.axisSampled levels b).2).axisSampled levels a =
          s.axisSampled levels a := by
        apply State.axisSampled_congr
        · rfl
        · exact hfilter
        · exact hdecoder
      rw [sampled, hdecoder]
      simp only [List.mem_cons, Ne.symm hab, false_or]
      exact congrArg (fun f => if a ∈ l then s.axisSampled levels a else (f, s.decoder a)) hfilter

/-- The sample of several capture lines reaches them and their filters, each by what it was, and nothing else. -/
theorem foldl_sampleCapture (levels : BitVec 4) {l : List CaptureNo} (hl : l.Nodup) (s : State) :
    ∃ filters lines, l.foldl (sampleCapture levels) s = { s with captureFilters := filters, captures := lines }
      ∧ ∀ n, (filters.get n, lines.get n) = if n ∈ l then s.captureSampled levels n else (s.captureFilter n, s.captureLine n) := by
  induction l generalizing s with
  | nil => exact ⟨_, _, rfl, fun n => rfl⟩
  | cons b l ih =>
    obtain ⟨hb, hl⟩ := List.nodup_cons.mp hl
    obtain ⟨filters, lines, e, hget⟩ := ih hl (sampleCapture levels s b)
    refine ⟨filters, lines, by rw [List.foldl_cons, e, sampleCapture_eq]; rfl, fun n => ?_⟩
    rw [hget n, sampleCapture_eq]
    by_cases hbn : b = n
    · subst hbn
      simp [hb]
    · have hfilter := State.captureFilter_setCaptureFilter_ne s (s.captureSampled levels b).1 hbn
      have hline := State.captureLine_setCaptureLine_ne (s.setCaptureFilter b (s.captureSampled levels b).1)
        (s.captureSampled levels b).2 hbn
      have sampled : ((s.setCaptureFilter b (s.captureSampled levels b).1).setCaptureLine b
          (s.captureSampled levels b).2).captureSampled levels n = s.captureSampled levels n := by
        apply State.captureSampled_congr
        · exact hfilter
        · exact hline
      rw [sampled, hline]
      simp only [List.mem_cons, Ne.symm hbn, false_or]
      exact congrArg (fun f => if n ∈ l then s.captureSampled levels n else (f, s.captureLine n)) hfilter

theorem mem_allAxes (a : AxisNo) : a ∈ allAxes := by
  fin_cases a <;> decide

theorem mem_allCaptures (n : CaptureNo) : n ∈ allCaptures := by
  fin_cases n <;> decide

/-- A clock period with nothing to take: a request that is due starts and RXD shows a level. -/
theorem passPeriod_idle {s : State} (rxd : Option Bool) (h : s.waiting = []) :
    passPeriod rxd s = { s with
      clock := s.clock + 1, handler := s.handler.startNext
      line := s.line.hear s.rx.broken (bitPeriods s.straps) (s.clock + 1) rxd } := by
  simp only [passPeriod, settle_idle _ h]
  rfl

/-- R1: a sample with nothing to take before it. -/
theorem takeSample_idle (sensors : BitVec 12) (lines : LinePins) {s : State} (h : s.waiting = []) :
    ∃ sensorFilters decoders captureFilters captures, takeSample sensors lines s =
        { s with
          clock := s.clock + 1, handler := s.handler.startNext
          line := s.line.hear s.rx.broken (bitPeriods s.straps) (s.clock + 1) lines.rxd
          sensorFilters := sensorFilters, decoders := decoders, captureFilters := captureFilters, captures := captures }
      ∧ (∀ a, (sensorFilters.get a, decoders.get a) = s.axisSampled sensors a)
      ∧ ∀ n, (captureFilters.get n, captures.get n) = s.captureSampled lines.captures n := by
  obtain ⟨sensorFilters, decoders, ea, ha⟩ :=
    foldl_sampleAxis sensors (l := allAxes) (by decide) (passPeriod lines.rxd s)
  obtain ⟨captureFilters, captures, ec, hc⟩ :=
    foldl_sampleCapture lines.captures (l := allCaptures) (by decide) (allAxes.foldl (sampleAxis sensors) (passPeriod lines.rxd s))
  refine ⟨sensorFilters, decoders, captureFilters, captures, ?_, fun a => ?_, fun n => ?_⟩
  · rw [takeSample, ec, ea, passPeriod_idle _ h]
  · rw [ha a, if_pos (mem_allAxes a), passPeriod_idle _ h]
    rfl
  · rw [hc n, if_pos (mem_allCaptures n), ea, passPeriod_idle _ h]
    rfl

/-- Settles O6: with nothing to take the sample is that of the filters, beside the clock period it ends. -/
theorem sampleHandsOnAcceptedChanges : Obligations.SampleHandsOnAcceptedChanges := by
  intro sensors lines s hrun h
  obtain ⟨sensorFilters, decoders, captureFilters, captures, e, ha, hc⟩ := takeSample_idle sensors lines h
  refine ⟨_, (whenRunning_running hrun).trans (congrArg _ e), rfl, fun a i => ?_, fun a => ?_, fun n => ⟨?_, ?_⟩, rfl, rfl, rfl⟩
  · refine (congrArg (fun p => p.1.get i) (ha a)).trans ?_
    fin_cases i <;> rfl
  · exact congrArg Prod.snd (ha a)
  · exact congrArg Prod.fst (hc n)
  · exact congrArg Prod.snd (hc n)

/-! ## Clock periods and the timebase -/

/-- R145: once the request that is due has started no other is. -/
theorem Handler.startNext_startNext (h : Handler) : h.startNext.startNext = h.startNext := by
  rcases h.startNext_cases with e | ⟨r, rest, -, -, -, e⟩
  · rw [e, e]
  · exact Handler.startNext_executing (by rw [e])

/-- Clock periods leave the timebase and the moment of the last tick. -/
theorem passPeriods_timebase (n : Nat) (s : State) :
    (passPeriods n s).timebase = s.timebase ∧ (passPeriods n s).tickedAt = s.tickedAt := by
  induction n generalizing s with
  | zero => exact ⟨rfl, rfl⟩
  | succ n ih =>
    obtain ⟨h1, h2⟩ := ih (passPeriod none s)
    have k := SameOutside.settle s.work s
    exact ⟨h1.trans k.timebase, h2.trans k.tickedAt⟩

/-- Clock periods with nothing to take and RXD not seen. -/
theorem passPeriods_idle (n : Nat) {s : State} (h : s.waiting = []) (hlevel : s.line.level = none) :
    passPeriods n s = { s with
      clock := s.clock + n, handler := if 0 < n then s.handler.startNext else s.handler } := by
  induction n generalizing s with
  | zero => rfl
  | succ n ih =>
    have one : passPeriod none s = { s with clock := s.clock + 1, handler := s.handler.startNext } := by
      rw [passPeriod_idle none h]
      simp [LineReceiver.hear, hlevel]
    rw [passPeriods, one, ih (s := { s with clock := s.clock + 1, handler := s.handler.startNext }) h hlevel]
    simp only [Handler.startNext_startNext, ite_self, Nat.succ_pos, if_true, Nat.add_assoc, Nat.add_comm 1]

/-- R84: the timebase rises by 1 with its wrap. -/
theorem timebase_toNat (x : Word32) : (x + 1).toNat = (x.toNat + 1) % 4294967296 := by
  simp [BitVec.toNat_add]

/-- Settles O30: a tick closes the clock periods that are missing and raises the timebase, and every other command but a reset keeps
it. -/
theorem theTimebaseCountsMicroseconds : Obligations.TheTimebaseCountsMicroseconds := by
  refine ⟨fun s hrun => ?tick, fun s settled rxd hs => ⟨rfl, fun n => rfl, by rw [hs]; rfl⟩, fun c s t h h1 h2 h3 h4 h5 => ?other⟩
  case tick =>
    obtain ⟨htimebase, hticked⟩ := passPeriods_timebase s.missingPeriods s
    have hclock : (takeTick s).clock = max s.clock (s.tickedAt + 20) := by
      simp only [takeTick, passPeriods_clock, State.missingPeriods, Config.periodsPerMicro]
      omega
    have hrest : { takeTick s with timebase := s.timebase, tickedAt := s.tickedAt } = passPeriods (s.tickedAt + 20 - s.clock) s := by
      have e : { takeTick s with
          timebase := (passPeriods s.missingPeriods s).timebase, tickedAt := (passPeriods s.missingPeriods s).tickedAt } =
            passPeriods s.missingPeriods s := rfl
      rwa [htimebase, hticked] at e
    have hnext : (takeTick s).timebase = s.timebase + 1 := congrArg (· + 1) htimebase
    refine ⟨takeTick s, whenRunning_running hrun, hnext, hnext ▸ timebase_toNat s.timebase, hclock, rfl, hrest, fun h hlevel => ?_⟩
    have e := passPeriods_idle (s.tickedAt + 20 - s.clock) h hlevel
    rw [e] at hrest
    have hhandler := congrArg State.handler hrest
    refine ⟨hhandler.trans ?_, ?_⟩
    · simp only [Nat.sub_pos_iff_lt]
    · have := congrArg (fun u : State => { u with clock := s.clock, handler := s.handler }) hrest
      exact this
  case other =>
    refine (exec_keeps c h).timebase fun hticks => ?_
    cases c with
    | powerOn pins => exact h2 pins rfl
    | resetPin => exact h3 rfl
    | resetPinRelease pins => exact h4 pins rfl
    | frameCompletion straps => exact h5 straps rfl
    | timebaseTick => exact h1 rfl
    | _ => exact hticks

end Sys2Proof.Machine

/-!
PROOF. The hand-overs of a sample do not read the count of those that a free value chose (log entry 3): with another count each does
the same.
-/

namespace Sys2Proof.Machine

/-- The state with another count of free values that chose a hand-over. -/
def State.withPicks (s : State) (n : Nat) : State := { s with picks := n }

section
variable (s : State) (n : Nat)

/-! ## What the count stands beside -/

@[simp] theorem State.withPicks_clock : (s.withPicks n).clock = s.clock := rfl
@[simp] theorem State.withPicks_draws : (s.withPicks n).draws = s.draws := rfl
@[simp] theorem State.withPicks_timebase : (s.withPicks n).timebase = s.timebase := rfl
@[simp] theorem State.withPicks_rx : (s.withPicks n).rx = s.rx := rfl
@[simp] theorem State.withPicks_line : (s.withPicks n).line = s.line := rfl
@[simp] theorem State.withPicks_handler : (s.withPicks n).handler = s.handler := rfl
@[simp] theorem State.withPicks_session : (s.withPicks n).session = s.session := rfl
@[simp] theorem State.withPicks_reportQueue : (s.withPicks n).reportQueue = s.reportQueue := rfl
@[simp] theorem State.withPicks_axis (a : AxisNo) : (s.withPicks n).axis a = s.axis a := rfl
@[simp] theorem State.withPicks_decoder (a : AxisNo) : (s.withPicks n).decoder a = s.decoder a := rfl
@[simp] theorem State.withPicks_sensorFilter (a : AxisNo) : (s.withPicks n).sensorFilter a = s.sensorFilter a := rfl
@[simp] theorem State.withPicks_markList (a : AxisNo) : (s.withPicks n).markList a = s.markList a := rfl
@[simp] theorem State.withPicks_captureLine (c : CaptureNo) : (s.withPicks n).captureLine c = s.captureLine c := rfl

@[simp] theorem State.reached_withPicks (t : Option Nat) : (s.withPicks n).reached t = s.reached t := rfl
@[simp] theorem State.afterMicros_withPicks (us : Nat) : (s.withPicks n).afterMicros us = s.afterMicros us := rfl
@[simp] theorem State.snapshot_withPicks (set : AxisSet) (arriving : Option (AxisNo × Int)) :
    (s.withPicks n).snapshot set arriving = s.snapshot set arriving := rfl
@[simp] theorem State.comes_withPicks (c : Character) : (s.withPicks n).comes c = s.comes c := rfl

@[simp] theorem State.setAxis_withPicks (a : AxisNo) (x : Axis) : (s.withPicks n).setAxis a x = (s.setAxis a x).withPicks n := rfl
@[simp] theorem State.setDecoder_withPicks (a : AxisNo) (d : Decoder) :
    (s.withPicks n).setDecoder a d = (s.setDecoder a d).withPicks n := rfl
@[simp] theorem State.setMarkList_withPicks (a : AxisNo) (l : List Mark) :
    (s.withPicks n).setMarkList a l = (s.setMarkList a l).withPicks n := rfl
@[simp] theorem State.setCaptureLine_withPicks (c : CaptureNo) (l : CaptureLine) :
    (s.withPicks n).setCaptureLine c l = (s.setCaptureLine c l).withPicks n := rfl
@[simp] theorem State.setHandler_withPicks (h : Handler) : (s.withPicks n).setHandler h = (s.setHandler h).withPicks n := rfl
@[simp] theorem State.setSession_withPicks (x : Session) : (s.withPicks n).setSession x = (s.setSession x).withPicks n := rfl
@[simp] theorem State.setQueue_withPicks (q : ReportQueue) : (s.withPicks n).setQueue q = (s.setQueue q).withPicks n := rfl
@[simp] theorem State.setRx_withPicks (x : Receiver) : (s.withPicks n).setRx x = (s.setRx x).withPicks n := rfl
@[simp] theorem State.countDiscard_withPicks : (s.withPicks n).countDiscard = s.countDiscard.withPicks n := rfl
@[simp] theorem State.dropDue_withPicks : (s.withPicks n).dropDue = s.dropDue.withPicks n := rfl
@[simp] theorem State.formRecord_withPicks (b : RecordBody) : (s.withPicks n).formRecord b = (s.formRecord b).withPicks n := rfl
@[simp] theorem State.claimPulse_withPicks (l : TriggerNo) :
    (s.withPicks n).claimPulse l = ((s.claimPulse l).1.withPicks n, (s.claimPulse l).2) := rfl

/-! ## The hand-overs of an axis -/

@[simp] theorem endDeferred_withPicks (i : SlotNo) (st : Status) (l : List Byte) :
    endDeferred i st l (s.withPicks n) = (endDeferred i st l s).withPicks n := by
  unfold endDeferred
  simp only [State.withPicks_handler]
  split <;> rfl

@[simp] theorem endHoming_withPicks (a : AxisNo) (h : Homing) (new : AxisState) (cause : StateCause) (st : Status)
    (l : List Byte) : (s.withPicks n).endHoming a h new cause st l = (s.endHoming a h new cause st l).withPicks n :=
  endDeferred_withPicks (s.changeState a { s.axis a with state := new, homing := none } cause) n h.slot st l

@[simp] theorem takeFault_withPicks (a : AxisNo) (k : FaultKind) :
    takeFault a k (s.withPicks n) = (takeFault a k s).withPicks n := by
  simp only [takeFault_eq, State.withPicks_axis, State.withPicks_timebase, State.setAxis_withPicks, State.formRecord_withPicks,
    endDeferred_withPicks]
  split <;> rfl

@[simp] theorem takePattern_withPicks (a : AxisNo) : takePattern a (s.withPicks n) = (takePattern a s).withPicks n := by
  unfold takePattern
  simp only [State.withPicks_axis, State.withPicks_decoder, State.withPicks_sensorFilter, State.setDecoder_withPicks,
    takeFault_withPicks]
  (repeat' split) <;> simp_all

@[simp] theorem judgeTravel_withPicks (a : AxisNo) : judgeTravel a (s.withPicks n) = (judgeTravel a s).withPicks n := by
  unfold judgeTravel
  simp only [State.withPicks_axis, endHoming_withPicks]
  (repeat' split) <;> simp_all

@[simp] theorem takeStep_withPicks (a : AxisNo) : takeStep a (s.withPicks n) = (takeStep a s).withPicks n := by
  unfold takeStep
  simp only [State.withPicks_axis, State.withPicks_decoder, State.setDecoder_withPicks, State.setAxis_withPicks,
    judgeTravel_withPicks]
  (repeat' split) <;> simp_all

@[simp] theorem takeSkip_withPicks (a : AxisNo) : takeSkip a (s.withPicks n) = (takeSkip a s).withPicks n := by
  unfold takeSkip
  simp only [State.withPicks_axis, State.withPicks_decoder, State.setDecoder_withPicks, State.formRecord_withPicks]
  (repeat' split) <;> simp_all

@[simp] theorem reportIndex_withPicks (a : AxisNo) (drift : Option Int) (corrected : Bool) :
    (s.withPicks n).reportIndex a drift corrected = (s.reportIndex a drift corrected).withPicks n := by
  unfold State.reportIndex
  simp only [State.withPicks_axis, State.formRecord_withPicks]
  split <;> simp_all

@[simp] theorem checkIndex_withPicks (a : AxisNo) : checkIndex a (s.withPicks n) = (checkIndex a s).withPicks n := by
  unfold checkIndex
  simp only [State.withPicks_axis, reportIndex_withPicks, State.setAxis_withPicks, takeFault_withPicks]
  (repeat' split) <;> simp_all

@[simp] theorem useIndex_withPicks (a : AxisNo) (d : Direction) :
    useIndex a d (s.withPicks n) = (useIndex a d s).withPicks n := by
  unfold useIndex completeHoming
  simp only [State.withPicks_axis, reportIndex_withPicks, State.setAxis_withPicks, checkIndex_withPicks, endHoming_withPicks]
  (repeat' split) <;> simp_all

@[simp] theorem takeIndex_withPicks (a : AxisNo) : takeIndex a (s.withPicks n) = (takeIndex a s).withPicks n := by
  unfold takeIndex
  simp only [State.withPicks_axis, State.withPicks_decoder, State.setDecoder_withPicks, useIndex_withPicks]
  split
  · rfl
  · split
    · rfl
    · split
      · split <;> exact judgeTravel_withPicks ..
      · rfl

/-! ## The hand-overs of the mark schedule and of the capture lines -/

@[simp] theorem releaseAction_withPicks (release : Option (AxisNo × Word16)) :
    (s.withPicks n).releaseAction release = ((s.releaseAction release).1.withPicks n, (s.releaseAction release).2) := by
  cases release <;> rfl

@[simp] theorem pulseAction_withPicks (pulse : Option TriggerNo) :
    (s.withPicks n).pulseAction pulse = ((s.pulseAction pulse).1.withPicks n, (s.pulseAction pulse).2) := by
  cases pulse <;> rfl

@[simp] theorem fireRecord_withPicks (a : AxisNo) (arr : Arrival) (m : Mark) (busy : Bool) (released : Option Nat)
    (snapshot : Option (List SnapEntry)) :
    (s.withPicks n).fireRecord a arr m busy released snapshot = (s.fireRecord a arr m busy released snapshot).withPicks n := by
  unfold State.fireRecord
  split <;> rfl

@[simp] theorem fireMark_withPicks (a : AxisNo) (arr : Arrival) (k : Nat) (m : Mark) :
    (s.withPicks n).fireMark a arr k m = (s.fireMark a arr k m).withPicks n := by
  unfold State.fireMark
  simp only [pulseAction_withPicks, releaseAction_withPicks]
  exact congrArg (fun u => State.reposition u a arr.position k m) (fireRecord_withPicks ..)

@[simp] theorem considerMarks_withPicks (a : AxisNo) (arr : Arrival) (flags : List Bool) (k : Nat) :
    considerMarks a arr flags k (s.withPicks n) = (considerMarks a arr flags k s).withPicks n := by
  induction flags generalizing k s with
  | nil => rfl
  | cons f fs ih =>
    unfold considerMarks
    simp only [State.withPicks_markList, fireMark_withPicks, ih]
    (repeat' split) <;> simp_all

@[simp] theorem takeArrival_withPicks (a : AxisNo) : takeArrival a (s.withPicks n) = (takeArrival a s).withPicks n := by
  unfold takeArrival
  simp only [State.withPicks_axis, State.withPicks_markList, State.setAxis_withPicks, considerMarks_withPicks]
  split <;> rfl

@[simp] theorem makeCapture_withPicks (c : CaptureNo) (e : Edge) :
    makeCapture c e (s.withPicks n) = (makeCapture c e s).withPicks n := by
  unfold makeCapture
  simp only [State.withPicks_captureLine]
  split <;> rfl

@[simp] theorem takeCaptureEdge_withPicks (c : CaptureNo) :
    takeCaptureEdge c (s.withPicks n) = (takeCaptureEdge c s).withPicks n := by
  unfold takeCaptureEdge
  simp only [State.withPicks_captureLine, State.setCaptureLine_withPicks, makeCapture_withPicks]
  (repeat' split) <;> simp_all

@[simp] theorem takeCaptureClaim_withPicks (c : CaptureNo) :
    takeCaptureClaim c (s.withPicks n) = (takeCaptureClaim c s).withPicks n := by
  unfold takeCaptureClaim
  simp only [State.withPicks_captureLine]
  split <;> rfl

/-! ## The character due -/

@[simp] theorem endDrain_withPicks (st : Status) : endDrain st (s.withPicks n) = (endDrain st s).withPicks n := by
  unfold endDrain
  simp only [State.withPicks_handler, endDeferred_withPicks]
  split <;> rfl

@[simp] theorem emptyEvent_withPicks : emptyEvent (s.withPicks n) = (emptyEvent s).withPicks n := by
  unfold emptyEvent
  simp only [State.withPicks_handler, State.reached_withPicks, endDrain_withPicks]
  split
  · rfl
  · next d _ =>
    by_cases hr : s.reached d.deadline = true
    · rw [if_pos hr, if_pos hr]
      exact endDrain_withPicks { s with draws := s.draws + 1 } n _
    · rw [if_neg hr, if_neg hr]

@[simp] theorem afterRemoval_withPicks (q : ReportQueue) :
    afterRemoval q (s.withPicks n) = (afterRemoval q s).withPicks n := by
  unfold afterRemoval
  simp only [State.withPicks_reportQueue, State.setQueue_withPicks, emptyEvent_withPicks]
  split <;> simp_all

@[simp] theorem hostHeard_withPicks : hostHeard (s.withPicks n) = (hostHeard s).withPicks n := by
  unfold hostHeard
  simp only [State.withPicks_session, State.setSession_withPicks]
  split <;> simp_all

@[simp] theorem acceptRequest_withPicks (tag code : Byte) (args : List Byte) :
    acceptRequest tag code args (s.withPicks n) = (acceptRequest tag code args s).withPicks n := by
  unfold acceptRequest
  simp only [State.withPicks_handler, State.countDiscard_withPicks, State.setHandler_withPicks, State.withPicks_draws]
  split
  · rfl
  · split
    · rfl
    · by_cases h : s.handler.startDue = true ∧ Config.requestQueueSize ≤ s.handler.queue.length
      · refine Eq.trans (if_pos h) (Eq.trans ?_ (congrArg (State.withPicks · n) (if_pos h).symm))
        rfl
      · exact Eq.trans (if_neg h) (congrArg (State.withPicks · n) (if_neg h).symm)

@[simp] theorem takeAck_withPicks (k : Word16) : takeAck k (s.withPicks n) = (takeAck k s).withPicks n := by
  by_cases h : s.session.state = .opened ∧ s.reportQueue.acknowledges k = true
  · exact Eq.trans (if_pos h) (Eq.trans (afterRemoval_withPicks (s.setSession { s.session with
      retries := 0, ackTimer := s.ackTimerAfter (s.reportQueue.removeThrough s.timebase k) }) n _)
      (congrArg (State.withPicks · n) (if_pos h).symm))
  · exact Eq.trans (if_neg h) (congrArg (State.withPicks · n) (if_neg h).symm)

@[simp] theorem takeNak_withPicks (k : Word16) : takeNak k (s.withPicks n) = (takeNak k s).withPicks n := by
  unfold takeNak
  simp only [State.withPicks_session, State.withPicks_reportQueue, State.withPicks_timebase, State.setSession_withPicks,
    afterRemoval_withPicks]
  split <;> simp_all

@[simp] theorem routeFrame_withPicks (f : Frame) : routeFrame f (s.withPicks n) = (routeFrame f s).withPicks n := by
  unfold routeFrame
  simp only [hostHeard_withPicks, State.countDiscard_withPicks, acceptRequest_withPicks, takeAck_withPicks, takeNak_withPicks]
  (repeat' split) <;> rfl

@[simp] theorem judgeBytes_withPicks (fuel : Nat) (bytes : List Byte) :
    judgeBytes fuel bytes (s.withPicks n) = (judgeBytes fuel bytes s).withPicks n := by
  induction fuel generalizing bytes s with
  | zero => rfl
  | succ fuel ih =>
    cases bytes with
    | nil => rfl
    | cons b rest =>
      unfold judgeBytes
      simp only [State.withPicks_rx, State.withPicks_clock, State.setRx_withPicks, routeFrame_withPicks,
        State.countDiscard_withPicks, ih]
      split <;> rfl

@[simp] theorem receiveBytes_withPicks (bytes : List Byte) :
    receiveBytes bytes (s.withPicks n) = (receiveBytes bytes s).withPicks n :=
  judgeBytes_withPicks ..

@[simp] theorem takeRxdByte_withPicks (b : Byte) : takeRxdByte b (s.withPicks n) = (takeRxdByte b s).withPicks n := by
  unfold takeRxdByte
  simp only [State.withPicks_rx, State.comes_withPicks, State.dropDue_withPicks, receiveBytes_withPicks]
  (repeat' split) <;> simp_all

@[simp] theorem takeError_withPicks :
    takeDiscard .characterError (s.withPicks n) = (takeDiscard .characterError s).withPicks n := by
  unfold takeDiscard discardFrame
  simp only [State.withPicks_rx, State.comes_withPicks, State.dropDue_withPicks, State.setRx_withPicks,
    State.countDiscard_withPicks, receiveBytes_withPicks]
  (repeat' split) <;> simp_all

/-- Each hand-over does the same whatever the count. -/
theorem takeNext_withPicks (x : Agent) : takeNext x (s.withPicks n) = (takeNext x s).withPicks n := by
  unfold takeNext takeCharacter
  simp only [State.withPicks_axis, State.withPicks_decoder, State.withPicks_captureLine, State.withPicks_line,
    takePattern_withPicks, takeArrival_withPicks, takeStep_withPicks, takeSkip_withPicks, takeIndex_withPicks,
    takeCaptureClaim_withPicks, takeCaptureEdge_withPicks, takeRxdByte_withPicks, takeError_withPicks]
  (repeat' split) <;> simp_all

end

end Sys2Proof.Machine

/-!
PROOF. The settling before a sample (R48, R80, log entries 2 and 3): each hand-over lowers the work that waits, so the settling ends with
nothing waiting. They settle O7.
-/

namespace Sys2Proof.Machine

/-! ## The work that waits -/

/-- How many hand-overs can follow from a decoder and an arrival. -/
def axisWorkOf (d : Decoder) (arrival : Option Arrival) : Nat :=
  (if d.patternDue then 8 else 0) + (if arrival.isSome then 1 else 0) + 2 * d.results.length + (if d.zDue.isSome then 1 else 0)

theorem State.axisWork_eq (s : State) (a : AxisNo) : s.axisWork a = axisWorkOf (s.decoder a) (s.axis a).arrival := rfl

/-- How many hand-overs can follow from a capture line. -/
def captureWorkOf (l : CaptureLine) : Nat := (if l.edgeDue.isSome then 2 else 0) + (if l.waiting.isSome then 1 else 0)

theorem State.captureWork_eq (s : State) (n : CaptureNo) : s.captureWork n = captureWorkOf (s.captureLine n) := rfl

/-- A sum over four of which one falls and the others stay. -/
theorem sum_lt_of_one {l : List (Fin 4)} {f g : Fin 4 → Nat} {a : Fin 4} (ha : a ∈ l) (hlt : f a < g a)
    (hne : ∀ b, b ≠ a → f b = g b) : (l.map f).sum < (l.map g).sum := by
  refine List.sum_lt_sum f g (fun b _ => ?_) ⟨a, ha, hlt⟩
  by_cases hb : b = a
  · exact hb ▸ hlt.le
  · exact (hne b hb).le

section
variable {s t : State}

/-- What an axis's hand-over leaves, when its own work falls. -/
theorem work_lt_of_axis {a : AxisNo} {d : Decoder} {x : Axis} (k : SameHandOvers ((s.setDecoder a d).setAxis a x) t)
    (h : axisWorkOf d x.arrival < axisWorkOf (s.decoder a) (s.axis a).arrival) : t.work < s.work := by
  have decoder : ∀ b, t.decoder b = if a = b then d else s.decoder b := fun b => by
    rw [k.decoder b]
    split
    · next hab => exact hab ▸ (s.decoder_setDecoder a d)
    · next hab => exact s.decoder_setDecoder_ne d hab
  have arrival : ∀ b, (t.axis b).arrival = if a = b then x.arrival else (s.axis b).arrival := fun b => by
    rw [k.arrival b, State.axis_setAxis_eq]
    split <;> rfl
  have captures : t.captureWork = s.captureWork := funext fun n => by rw [State.captureWork_eq, k.captureLine n]; rfl
  have link : t.linkWaits = s.linkWaits := by
    simp only [State.linkWaits, k.line, k.rx]
    rfl
  have axes : (allAxes.map t.axisWork).sum < (allAxes.map s.axisWork).sum := by
    refine sum_lt_of_one (mem_allAxes a) ?_ fun b hb => ?_
    · simpa only [State.axisWork_eq, decoder, arrival, if_true] using h
    · simp only [State.axisWork_eq, decoder, arrival, if_neg (Ne.symm hb)]
  simp only [State.work, captures, link]
  omega

/-- What a capture line's hand-over leaves, when its own work falls. -/
theorem work_lt_of_capture {n : CaptureNo} {l : CaptureLine} (k : SameHandOvers (s.setCaptureLine n l) t)
    (h : captureWorkOf l < captureWorkOf (s.captureLine n)) : t.work < s.work := by
  have line : ∀ m, t.captureLine m = if n = m then l else s.captureLine m := fun m => by
    rw [k.captureLine m]
    split
    · next hnm => exact hnm ▸ (s.captureLine_setCaptureLine n l)
    · next hnm => exact s.captureLine_setCaptureLine_ne l hnm
  have axes : t.axisWork = s.axisWork := funext fun a => by
    rw [State.axisWork_eq, k.decoder a, k.arrival a]
    rfl
  have link : t.linkWaits = s.linkWaits := by
    simp only [State.linkWaits, k.line, k.rx]
    rfl
  have captures : (allCaptures.map t.captureWork).sum < (allCaptures.map s.captureWork).sum := by
    refine sum_lt_of_one (mem_allCaptures n) ?_ fun m hm => ?_
    · simpa only [State.captureWork_eq, line, if_true] using h
    · simp only [State.captureWork_eq, line, if_neg (Ne.symm hm)]
  simp only [State.work, axes, link]
  omega

/-- R18, R48: a hand-over of an axis lowers the work. -/
theorem takeNext_axis_work {a : AxisNo} (h : s.axisWaits a = true) : (takeNext (.axis a) s).work < s.work := by
  unfold takeNext
  dsimp only
  split
  · next hp =>
    obtain ⟨d, k, hdue, hlen, hz⟩ := takePattern_handOvers a s hp
    refine work_lt_of_axis (x := s.axis a) (by rwa [show s.axis a = (s.setDecoder a d).axis a from rfl, State.setAxis_self]) ?_
    simp only [axisWorkOf, hp, hdue, if_true, Bool.false_eq_true, if_false]
    split <;> split <;> simp_all <;> omega
  next hp =>
  replace hp := Bool.eq_false_of_not_eq_true hp
  split
  · next harr =>
    refine work_lt_of_axis (a := a) (d := s.decoder a) (x := { s.axis a with arrival := none }) ?_ ?_
    · rw [State.setDecoder_self]
      exact takeArrival_handOvers a s
    · simp only [axisWorkOf, harr, Option.isSome_none, Bool.false_eq_true, if_false, if_true]
      omega
  next harr =>
  replace harr := Option.not_isSome_iff_eq_none.mp harr
  split
  · next d i rest hr =>
    obtain ⟨x, k⟩ := takeStep_handOvers hr harr
    refine work_lt_of_axis k ?_
    have hone : (if x.arrival.isSome then 1 else 0) ≤ 1 := by split <;> simp
    simp only [axisWorkOf, hr, harr, List.length_cons, Option.isSome_none, Bool.false_eq_true, if_false]
    omega
  · next d rest hr =>
    refine work_lt_of_axis (a := a) (d := { s.decoder a with results := rest }) (x := s.axis a) ?_ ?_
    · rw [show s.axis a = (s.setDecoder a { s.decoder a with results := rest }).axis a from rfl, State.setAxis_self]
      exact takeSkip_handOvers hr harr
    · simp only [axisWorkOf, hr, List.length_cons]
      omega
  · next hr =>
    refine work_lt_of_axis (a := a) (d := { s.decoder a with zDue := none }) (x := s.axis a) ?_ ?_
    · rw [show s.axis a = (s.setDecoder a { s.decoder a with zDue := none }).axis a from rfl, State.setAxis_self]
      exact takeIndex_handOvers hp hr harr
    · have hz : (s.decoder a).zDue.isSome = true := by simpa [State.axisWaits, hp, hr, harr] using h
      simp only [axisWorkOf, hz, if_true, Option.isSome_none, Bool.false_eq_true, if_false]
      omega

/-- R80: a hand-over of a capture line lowers the work. -/
theorem takeNext_capture_work {n : CaptureNo} (h : s.captureWaits n = true) : (takeNext (.capture n) s).work < s.work := by
  obtain ⟨l, k, hl⟩ := takeNext_capture_handOvers n s
  refine work_lt_of_capture k ?_
  by_cases hw : (s.captureLine n).waiting.isSome = true
  · rw [if_pos hw] at hl
    obtain ⟨hnone, hedge⟩ := hl
    simp only [captureWorkOf, hnone, hedge, hw, if_true, Option.isSome_none, Bool.false_eq_true, if_false]
    omega
  · rw [if_neg hw] at hl
    have he : (s.captureLine n).edgeDue.isSome = true := by simpa [State.captureWaits, hw] using h
    simp only [captureWorkOf, hl, he, if_true, Option.isSome_none, Bool.false_eq_true, if_false]
    split <;> omega

/-- R125: a character that waits, handed on, is due no more, and the blocks have what they had. -/
theorem takeCharacter_handsOver (h : s.linkWaits = true) :
    (takeCharacter s).line.due = none ∧ (takeCharacter s).decoders = s.decoders ∧ (takeCharacter s).axes = s.axes
      ∧ (takeCharacter s).captures = s.captures := by
  simp only [State.linkWaits, Bool.and_eq_true, Bool.not_eq_true'] at h
  obtain ⟨hdue, hb⟩ := h
  obtain ⟨_, _, _, _, _, _, e⟩ := takeCharacter_frame s
  refine ⟨?_, by rw [e], by rw [e], by rw [e]⟩
  have received : ∀ bytes u, (receiveBytes bytes u).line = u.line := fun bytes u => by
    obtain ⟨_, _, _, _, _, e⟩ := receiveBytes_frame bytes u
    rw [e]
  have comes : ∀ c edge, s.line.due = some (c, edge) → s.comes c = true := fun c edge hc =>
    State.comes_iff.mpr (.inr ⟨edge, hc⟩)
  unfold takeCharacter
  split
  · next hnone => simp [hnone] at hdue
  · next b edge hc =>
    simp only [takeRxdByte, hb, comes _ _ hc, Bool.false_eq_true, if_false, if_true, received]
    rfl
  · next edge hc =>
    simp only [takeDiscard, hb, comes _ _ hc, Bool.false_eq_true, if_false, if_true]
    split
    · rfl
    · exact (congrArg LineReceiver.due (received ..)).trans rfl

/-- Each hand-over of a block that waits lowers the work. -/
theorem takeNext_work {x : Agent} (h : x ∈ s.waiting) : (takeNext x s).work < s.work := by
  simp only [State.waiting, List.mem_append, List.mem_map, List.mem_filter] at h
  rcases h with (⟨a, ⟨-, ha⟩, rfl⟩ | ⟨n, ⟨-, hn⟩, rfl⟩) | hx
  · exact takeNext_axis_work ha
  · exact takeNext_capture_work hn
  · split at hx
    · next hlink =>
      obtain rfl := List.mem_singleton.mp hx
      obtain ⟨hdue, hdecoders, haxes, hcaptures⟩ := takeCharacter_handsOver hlink
      have axes : (takeCharacter s).axisWork = s.axisWork := funext fun a => by
        rw [State.axisWork_eq, show (takeCharacter s).decoder a = s.decoder a from congrArg (fun v => v.get a) hdecoders,
          show (takeCharacter s).axis a = s.axis a from congrArg (fun v => v.get a) haxes]
        rfl
      have captures : (takeCharacter s).captureWork = s.captureWork := funext fun n => by
        rw [State.captureWork_eq, show (takeCharacter s).captureLine n = s.captureLine n from congrArg (fun v => v.get n) hcaptures]
        rfl
      have idle : (takeCharacter s).linkWaits = false := by simp [State.linkWaits, hdue]
      show (takeCharacter s).work < s.work
      simp [State.work, axes, captures, hlink, idle]
    · cases hx

/-- A block that waits has work. -/
theorem waiting_nil_of_work (h : s.work = 0) : s.waiting = [] := by
  by_contra hne
  obtain ⟨x, hx⟩ := List.exists_mem_of_ne_nil _ hne
  exact absurd (takeNext_work hx) (by omega)

/-! ## Settling -/

/-- The block that takes its hand-over next is one that waits. -/
theorem getD_mod_mem {x : Agent} {rest : List Agent} (n : Nat) :
    (x :: rest).getD (n % (x :: rest).length) x ∈ x :: rest := by
  have : n % (x :: rest).length < (x :: rest).length := Nat.mod_lt _ (by simp)
  rw [List.getD_eq_getElem _ _ this]
  exact List.getElem_mem _

/-- R48, R80: with work allowed for all that waits, the settling ends with nothing waiting. -/
theorem settle_waiting (fuel : Nat) (h : s.work ≤ fuel) : (settle fuel s).waiting = [] := by
  induction fuel generalizing s with
  | zero => exact waiting_nil_of_work (Nat.le_zero.mp h)
  | succ fuel ih =>
    unfold settle
    split
    · assumption
    · next x hx =>
      exact ih (Nat.le_of_lt_succ (Nat.lt_of_lt_of_le (takeNext_work (by rw [hx]; exact List.mem_singleton_self x)) h))
    · next x rest _ hx =>
      have turn : (x :: rest).getD (Config.pickOrder s.picks % (x :: rest).length) x
          ∈ ({ s with picks := s.picks + 1 } : State).waiting :=
        (show s.waiting = _ from hx) ▸ getD_mod_mem _
      exact ih (Nat.le_of_lt_succ (Nat.lt_of_lt_of_le (takeNext_work turn) h))

/-- Log entry 2: the hand-over of a block that waits is a command. -/
theorem takeNext_command {x : Agent} (hrun : Running s) (h : x ∈ s.waiting) :
    ∃ c, HandsOn c ∧ exec c s = .next (takeNext x s) := by
  cases x with
  | axis a =>
    unfold takeNext
    dsimp only
    split
    · exact ⟨.patternChange a, .inl ⟨a, rfl⟩, whenRunning_running hrun⟩
    split
    · exact ⟨.arrivalEvaluation a, by simp [HandsOn], whenRunning_running hrun⟩
    split
    · exact ⟨.step a, by simp [HandsOn], whenRunning_running hrun⟩
    · exact ⟨.skipNotice a, by simp [HandsOn], whenRunning_running hrun⟩
    · exact ⟨.indexArrival a, by simp [HandsOn], whenRunning_running hrun⟩
  | capture n =>
    unfold takeNext
    dsimp only
    split
    · exact ⟨.captureReleaseClaim n, by simp [HandsOn], whenRunning_running hrun⟩
    · exact ⟨.captureEdge n, by simp [HandsOn], whenRunning_running hrun⟩
  | link =>
    unfold takeNext takeCharacter
    dsimp only
    split
    · next hnone => simp [State.waiting, State.linkWaits, hnone] at h
    · next b _ _ => exact ⟨.rxdByte b, by simp [HandsOn], whenRunning_running hrun⟩
    · exact ⟨.frameDiscard .characterError, by simp [HandsOn], whenRunning_running hrun⟩

/-- The settling is a run of hand-over commands, beside the count of those that a free value chose (log entry 3). -/
theorem settle_run (fuel : Nat) (n : Nat) (hrun : Running s) :
    ∃ (cs : List Instr) (t : State) (m : Nat), (∀ c ∈ cs, HandsOn c) ∧ cs.length ≤ fuel ∧ execAll cs s = .next t
      ∧ settle fuel (s.withPicks n) = t.withPicks m := by
  induction fuel generalizing s n with
  | zero => exact ⟨[], s, n, by simp, le_refl _, rfl, rfl⟩
  | succ fuel ih =>
    have one : ∀ x k, x ∈ s.waiting → ∃ (cs : List Instr) (t : State) (m : Nat), (∀ c ∈ cs, HandsOn c)
        ∧ cs.length ≤ fuel + 1 ∧ execAll cs s = .next t ∧ settle fuel (takeNext x (s.withPicks k)) = t.withPicks m := fun x k hx => by
      obtain ⟨c, hc, e⟩ := takeNext_command hrun hx
      obtain ⟨cs, t, m, hcs, hlen, erun, esettle⟩ := ih (s := takeNext x s) k ((SameOutside.takeNext x s).resetLow.trans hrun)
      refine ⟨c :: cs, t, m, by simpa [hc] using hcs, by simpa using hlen, ?_, ?_⟩
      · simp only [execAll, e, erun]
      · rw [takeNext_withPicks, esettle]
    unfold settle
    split
    · exact ⟨[], s, n, by simp, by simp, rfl, rfl⟩
    · next x hx => exact one x n ((show s.waiting = _ from hx) ▸ List.mem_singleton_self x)
    · next x rest _ hx => exact one _ _ ((show s.waiting = _ from hx) ▸ getD_mod_mem _)

end

/-- Settles O7: the settling is a run of hand-overs that ends with nothing waiting, and a settled state needs no settling. -/
theorem samplesSettleFirst : Obligations.SamplesSettleFirst := by
  have settled : ∀ s : State, (settle s.work s).waiting = [] := fun s => settle_waiting s.work le_rfl
  refine ⟨fun s hrun => ?_, settled, fun s h => settle_idle s.work h, fun sensors lines s hrun => ?_⟩
  · obtain ⟨cs, t, m, hcs, hlen, erun, esettle⟩ := settle_run s.work s.picks hrun
    have e : settle s.work s = t.withPicks m := esettle
    have hwaiting := settled s
    rw [e] at hwaiting
    exact ⟨cs, t, hcs, hlen, erun, hwaiting, by rw [e]; rfl⟩
  · have hrun' : Running (settle s.work s) := (SameOutside.settle s.work s).resetLow.trans hrun
    have same : passPeriod lines.rxd (settle s.work s) = passPeriod lines.rxd s := by
      simp only [passPeriod, settle_idle _ (settled s)]
    refine (whenRunning_running hrun).trans (Eq.trans ?_ (whenRunning_running hrun').symm)
    simp only [takeSample, same]

end Sys2Proof.Machine

/-!
PROOF. The step decoders (chapter 1): what a pattern change brings about in each state of the axis. They settle O8, O9 and
O10.
-/

namespace Sys2Proof.Machine

/-! ## Patterns and phases (1.3) -/

/-- 1.3: a QUAD pattern shows its place in the cycle. -/
theorem phaseOf_quadCycle {m : InputMode} (hm : m = .quad ∨ m = .quadIndex) (i : Fin 4) :
    phaseOf m (quadCycle i) = some i.val := by
  rcases hm with rfl | rfl <;> revert i <;> decide

/-- 1.3: a HALL3 pattern of the cycle shows its place in it. -/
theorem phaseOf_hallCycle (i : Fin 6) : phaseOf .hall3 (hallCycle i) = some i.val := by
  revert i; decide

/-- 1.3: the patterns that no phase has are 000 and 111 in HALL3 mode. -/
theorem phaseOf_eq_none {m : InputMode} {p : BitVec 3} :
    phaseOf m p = none ↔ m = .hall3 ∧ (p = 0b000 ∨ p = 0b111) := by
  cases m <;> revert p <;> decide

/-- R11, R14: a move in a two-input mode is judged by the phases it goes ahead, after inversion. -/
theorem judgeMove_quad {m : InputMode} (hm : m = .quad ∨ m = .quadIndex) (invert : Bool) (i k : Fin 4) :
    judgeMove m invert (((i + k).val + m.phases - i.val) % m.phases) =
      if k = 1 then .single (moveDirection true invert) else if k = 3 then .single (moveDirection false invert)
      else if k = 2 then .jump .quadJump else .nothing := by
  rcases hm with rfl | rfl <;> revert invert i k <;> decide

/-- R12, R14: a move in HALL3 mode is judged by the phases it goes ahead, after inversion. -/
theorem judgeMove_hall (invert : Bool) (i k : Fin 6) :
    judgeMove .hall3 invert (((i + k).val + InputMode.hall3.phases - i.val) % InputMode.hall3.phases) =
      if k = 1 ∨ k = 5 then .single (moveDirection (k = 1) invert)
      else if k = 2 ∨ k = 4 then .double (moveDirection (k = 2) invert)
      else if k = 3 then .jump .hallJump else .nothing := by
  revert invert i k; decide

/-- R10: a decoder that awaits a pattern takes a valid one as its start pattern and does not judge an invalid one. -/
theorem judgePattern_awaiting {d : Decoder} (h : d.awaiting = true) (m : InputMode) (invert : Bool) (p : BitVec 3) :
    judgePattern m invert d p = if m = .hall3 ∧ (p = 0b000 ∨ p = 0b111) then .nothing else .start := by
  cases hp : phaseOf m p with
  | none => simp only [judgePattern, hp, if_pos h, if_pos (phaseOf_eq_none.mp hp)]
  | some q =>
    have valid : ¬(m = .hall3 ∧ (p = 0b000 ∨ p = 0b111)) := fun e => by simp [phaseOf_eq_none.mpr e] at hp
    simp only [judgePattern, hp, if_pos h, if_neg valid]

/-- R11, R12: a decoder that awaits none judges a valid pattern by the phases it is ahead of the current one. -/
theorem judgePattern_phases {d : Decoder} (h : d.awaiting = false) {m : InputMode} {p : BitVec 3} {c q : Nat}
    (hc : phaseOf m d.current = some c) (hq : phaseOf m p = some q) (invert : Bool) :
    judgePattern m invert d p = judgeMove m invert ((q + m.phases - c) % m.phases) := by
  simp [judgePattern, h, hc, hq]

/-- R12: a decoder that awaits none judges a pattern that no phase has as invalid. -/
theorem judgePattern_invalid {d : Decoder} (h : d.awaiting = false) {m : InputMode} {p : BitVec 3}
    (hp : phaseOf m p = none) (invert : Bool) : judgePattern m invert d p = .invalid := by
  simp [judgePattern, h, hp]

/-! ## A pattern change taken (R7, R8) -/

/-- What a judgement brings about, on an axis that counts. -/
def applyJudgement (a : AxisNo) (d : Decoder) (p : BitVec 3) (s : State) : Judgement → State
  | .start => s.setDecoder a { d with current := p, awaiting := false }
  | .nothing => s.setDecoder a d
  | .single dir => s.setDecoder a { d with current := p, direction := dir, results := d.results ++ [.step dir false] }
  | .double dir => s.setDecoder a
      { d with current := p, direction := dir, results := d.results ++ [.step dir true, .step dir false, .skip dir] }
  | .jump k => takeFault a k (s.setDecoder a { d with current := p, zDue := none })
  | .invalid => takeFault a .hallInvalid (s.setDecoder a { d with awaiting := true, zDue := none })

section
variable {s : State} {a : AxisNo} {p : BitVec 3}

/-- R10 to R13: an axis that counts has its decoder judge the pattern. -/
theorem takePattern_counts (hdue : (s.decoder a).patternDue = true)
    (hp : patternOf (s.axis a).config.mode (s.sensorFilter a) = some p) (hcounts : (s.axis a).state.counts = true) :
    takePattern a s = applyJudgement a { s.decoder a with patternDue := false } p s
      (judgePattern (s.axis a).config.mode (s.axis a).config.invert { s.decoder a with patternDue := false } p) := by
  unfold takePattern
  cases hst : (s.axis a).state <;> simp only [hst, AxisState.counts, Bool.false_eq_true] at hcounts <;>
    simp only [hdue, hp, ↓reduceIte] <;>
    cases judgePattern (s.axis a).config.mode (s.axis a).config.invert { s.decoder a with patternDue := false } p <;> rfl

/-- R8: the decoder of a DISABLED axis is idle. -/
theorem takePattern_disabled (hdue : (s.decoder a).patternDue = true)
    (hp : patternOf (s.axis a).config.mode (s.sensorFilter a) = some p) (hst : (s.axis a).state = .disabled) :
    takePattern a s = s.setDecoder a { s.decoder a with patternDue := false } := by
  simp [takePattern, hdue, hp, hst]

/-- R15: the decoder of a FAULTED axis follows the sensor. -/
theorem takePattern_faulted (hdue : (s.decoder a).patternDue = true)
    (hp : patternOf (s.axis a).config.mode (s.sensorFilter a) = some p) (hst : (s.axis a).state = .faulted) :
    takePattern a s =
      s.setDecoder a (Decoder.follow { s.decoder a with patternDue := false } (s.axis a).config.mode p) := by
  simp [takePattern, hdue, hp, hst]

end

/-- R15: to follow is to take a valid pattern and to await one after an invalid one. -/
theorem Decoder.follow_eq (d : Decoder) (m : InputMode) (p : BitVec 3) :
    d.follow m p = if m = .hall3 ∧ (p = 0b000 ∨ p = 0b111) then { d with awaiting := true }
      else { d with current := p, awaiting := false } := by
  unfold Decoder.follow
  split
  · next hp => rw [if_pos (phaseOf_eq_none.mp hp)]
  · next hp => rw [if_neg fun e => by simp [phaseOf_eq_none.mpr e] at hp]

/-! ## The statements -/

/-- Settles O8: the judgement of a QUAD pattern one, two or three phases ahead, applied. -/
theorem quadPatternsAreJudged : Obligations.QuadPatternsAreJudged := by
  unfold Obligations.QuadPatternsAreJudged
  rintro s a i k d c hrun rfl rfl hcounts hm hdue hawait hcur hp
  have judged : judgePattern (s.axis a).config.mode (s.axis a).config.invert { s.decoder a with patternDue := false }
      (quadCycle (i + k)) = judgeMove (s.axis a).config.mode (s.axis a).config.invert _ :=
    judgePattern_phases (d := { s.decoder a with patternDue := false }) hawait
      (hcur ▸ phaseOf_quadCycle hm i) (phaseOf_quadCycle hm (i + k)) _
  have taken := takePattern_counts hdue hp hcounts
  rw [judged, judgeMove_quad hm] at taken
  refine ⟨?_, ?_, ?_⟩ <;> rintro rfl <;> exact (whenRunning_running hrun).trans (congrArg _ taken)

/-- Settles O9: the judgement of a HALL3 pattern of the cycle, or of one that no phase has, applied. -/
theorem hallPatternsAreJudged : Obligations.HallPatternsAreJudged := by
  unfold Obligations.HallPatternsAreJudged
  rintro s a i d c hrun rfl rfl hcounts hm hdue hawait hcur
  refine ⟨fun k hp => ?_, fun p hinvalid hp => ?_⟩
  · have taken := takePattern_counts hdue hp hcounts
    rw [judgePattern_phases (d := { s.decoder a with patternDue := false }) hawait
      (by rw [hm]; exact hcur ▸ phaseOf_hallCycle i) (by rw [hm]; exact phaseOf_hallCycle (i + k)), hm, judgeMove_hall] at taken
    refine ⟨?_, ?_, ?_⟩
    · intro hk
      rw [if_pos hk] at taken
      exact (whenRunning_running hrun).trans (congrArg _ taken)
    · intro hk
      rw [if_neg (by rcases hk with rfl | rfl <;> decide), if_pos hk] at taken
      exact (whenRunning_running hrun).trans (congrArg _ taken)
    · rintro rfl
      exact (whenRunning_running hrun).trans (congrArg _ taken)
  · have taken := takePattern_counts hdue hp hcounts
    rw [judgePattern_invalid (d := { s.decoder a with patternDue := false }) hawait
      (phaseOf_eq_none.mpr ⟨hm, hinvalid⟩)] at taken
    exact (whenRunning_running hrun).trans (congrArg _ taken)

/-- Settles O10: by the state of the axis, and by the accepted levels of the pattern inputs. -/
theorem patternsThatCountNothing : Obligations.PatternsThatCountNothing := by
  unfold Obligations.PatternsThatCountNothing
  refine ⟨?_, ?_, ?_, ?_⟩
  · rintro s a d m p hrun rfl rfl hdue hp
    refine ⟨fun hst => ?_, fun hst => ?_, fun hcounts hawait => ?_⟩
    · exact (whenRunning_running hrun).trans (congrArg _ (takePattern_disabled hdue hp hst))
    · have taken := takePattern_faulted hdue hp hst
      rw [Decoder.follow_eq] at taken
      exact (whenRunning_running hrun).trans (congrArg _ taken)
    · have taken := takePattern_counts hdue hp hcounts
      rw [judgePattern_awaiting (d := { s.decoder a with patternDue := false }) hawait] at taken
      refine (whenRunning_running hrun).trans (congrArg _ (taken.trans ?_))
      split <;> rfl
  · rintro f m a b hm ha hb
    refine ⟨BitVec.ofBool false ++ BitVec.ofBool b ++ BitVec.ofBool a, ?_, ?_⟩
    · rcases hm with rfl | rfl <;> simp [patternOf, ha, hb]
    · cases a <;> cases b <;> decide
  · intro f u v w hu hv hw
    refine ⟨BitVec.ofBool w ++ BitVec.ofBool v ++ BitVec.ofBool u, by simp [patternOf, hu, hv, hw], ?_⟩
    cases u <;> cases v <;> cases w <;> decide
  · rintro f m (h | h | ⟨rfl, h⟩)
    · simp [patternOf, h]
    · cases h0 : (f.get 0).accepted <;> simp [patternOf, h, h0]
    · cases h0 : (f.get 0).accepted <;> cases h1 : (f.get 1).accepted <;> simp [patternOf, h, h0, h1]

end Sys2Proof.Machine

/-!
PROOF. The axis controllers (chapter 2): steps, skip notices, index arrivals, faults and timers. They settle O11, O12, O13,
O14 and O15.
-/

namespace Sys2Proof.Machine

/-! ## Steps (R24, R31) -/

section
variable {s : State} {a : AxisNo}

/-- R24, R31: a step on an axis that counts moves it; the travel limit is judged when no index edge of the sample is due. -/
theorem takeStep_counts {dir : Direction} {inferred : Bool} {rest : List DecoderResult}
    (hres : (s.decoder a).results = .step dir inferred :: rest) (harr : (s.axis a).arrival = none)
    (hcounts : (s.axis a).state.counts = true) :
    takeStep a s =
      if (s.decoder a).zDue.isNone then
        judgeTravel a ((s.setDecoder a { s.decoder a with results := rest }).setAxis a ((s.axis a).stepped1 dir inferred))
      else (s.setDecoder a { s.decoder a with results := rest }).setAxis a ((s.axis a).stepped1 dir inferred) := by
  simp [takeStep, hres, harr, hcounts]

/-- R24, R25, R31, R40: the axis after a step, where it held no arrival. -/
theorem Axis.stepped1_eq {x : Axis} (dir : Direction) (inferred : Bool) (harr : x.arrival = none) :
    x.stepped1 dir inferred =
      { x with
        position := (moveOne x.config.modulus dir x.position x.turns).1
        turns := (moveOne x.config.modulus dir x.position x.turns).2
        stepped := (moveOne x.config.modulus dir x.position x.turns).1
        net := if dir = .up then x.net + 1 else x.net - 1
        homing := x.homing.map fun h => { h with total := h.total + 1 }
        arrival := if x.state = .referenced then
          some { position := (moveOne x.config.modulus dir x.position x.turns).1, direction := dir, inferred := inferred }
          else none } := by
  cases dir <;> simp [Axis.stepped1, harr, Direction.sign, Int.sub_eq_add_neg]

/-- R31: a step total that has reached the travel limit ends homing. -/
theorem judgeTravel_reached {h : Homing} {limit : Nat} (hh : (s.axis a).homing = some h)
    (hl : (s.axis a).config.travelLimit = some limit) (hle : limit ≤ h.total) :
    judgeTravel a s = s.endHoming a h .free .homeFailed .noIndex (stepTotalBytes h.total) := by
  simp [judgeTravel, hh, hl, hle]

/-- R13: a skip notice forms its SKIP record. -/
theorem takeSkip_skip {dir : Direction} {rest : List DecoderResult}
    (hres : (s.decoder a).results = .skip dir :: rest) (harr : (s.axis a).arrival = none) :
    takeSkip a s =
      (s.setDecoder a { s.decoder a with results := rest }).formRecord (.skip a (s.axis a).stepped dir) := by
  simp [takeSkip, hres, harr]

/-! ## Index arrivals (R17, R31, R32, R35, R36) -/

/-- R17, R18: a change of Z on an axis that counts in QUAD_INDEX mode is used when it is an index edge; then the travel limit
is judged. -/
theorem takeIndex_counts {e : Edge} (hz : ZDue a e s) (hm : (s.axis a).config.mode = .quadIndex)
    (hcounts : (s.axis a).state.counts = true) :
    takeIndex a s = judgeTravel a
      (if indexEdge e (s.decoder a).direction then
        useIndex a (s.decoder a).direction (s.setDecoder a { s.decoder a with zDue := none })
       else s.setDecoder a { s.decoder a with zDue := none }) := by
  obtain ⟨-, hdue, hres, harr, hz⟩ := hz
  simp [takeIndex, hz, hdue, hres, harr, hm, hcounts]

/-- R8, R17: a change of Z on an axis that does not count, or in another mode, is dropped. -/
theorem takeIndex_dropped {e : Edge} (hz : ZDue a e s)
    (hn : ¬((s.axis a).config.mode = .quadIndex ∧ (s.axis a).state.counts = true)) :
    takeIndex a s = s.setDecoder a { s.decoder a with zDue := none } := by
  obtain ⟨-, hdue, hres, harr, hz⟩ := hz
  simp only [takeIndex, hz]
  rw [if_neg (by simp [hdue, hres, harr]), if_neg hn]

/-- R17: an index edge that is due is a change of Z that is due and gives an index arrival. -/
theorem IndexDue.zDue (h : IndexDue a s) : ∃ e, ZDue a e s ∧ indexEdge e (s.decoder a).direction = true := by
  obtain ⟨hrun, hdue, hres, harr, -, ⟨hz, hd⟩ | ⟨hz, hd⟩⟩ := h
  · exact ⟨.rising, ⟨hrun, hdue, hres, harr, hz⟩, by rw [hd]; rfl⟩
  · exact ⟨.falling, ⟨hrun, hdue, hres, harr, hz⟩, by rw [hd]; rfl⟩

/-- R17: the changes of Z that give no index arrival. -/
theorem indexEdge_eq_false {e : Edge} {d : Direction} :
    ((e = .rising ∧ d = .down) ∨ (e = .falling ∧ d = .up)) → indexEdge e d = false := by
  cases e <;> cases d <;> decide

/-- R17, R18: an index arrival is used, and then the travel limit is judged. -/
theorem exec_indexArrival {t : State} (h : IndexDue a s) (hcounts : (s.axis a).state.counts = true)
    (hused : useIndex a (s.decoder a).direction (s.setDecoder a { s.decoder a with zDue := none }) = t) :
    exec (.indexArrival a) s = .next (judgeTravel a t) := by
  subst hused
  obtain ⟨e, hz, hedge⟩ := h.zDue
  refine (whenRunning_running h.1).trans (congrArg _ ?_)
  rw [takeIndex_counts hz h.2.2.2.2.1 hcounts, if_pos hedge]

end

/-- A qualifier admits the direction it names, and EITHER both. -/
theorem Qualifier.admits_iff {q : Qualifier} {d : Direction} :
    q.admits d = true ↔ q = .either ∨ (q = .up ∧ d = .up) ∨ (q = .down ∧ d = .down) := by
  cases q <;> cases d <;> decide

/-- The qualifier of the other direction refuses a direction. -/
theorem Qualifier.admits_opposite (d : Direction) :
    Qualifier.admits (if d = .up then .down else .up) d = false := by
  cases d <;> rfl

/-- R32, R35: an index arrival that serves neither homing nor the check is reported. -/
theorem useIndex_reported {s : State} {a : AxisNo} {d : Direction}
    (h : (s.axis a).state = .free
      ∨ ((s.axis a).state = .referenced ∧ ((s.axis a).config.indexCheck = false ∨ (s.axis a).config.modulus = 0))
      ∨ ((s.axis a).state = .seeking ∧
          ∃ h, (s.axis a).homing = some h ∧ h.qualifier = (if d = .up then .down else .up))) :
    useIndex a d s = s.reportIndex a none false := by
  rcases h with hst | ⟨hst, hno⟩ | ⟨hst, h, hh, hq⟩
  · simp [useIndex, hst]
  · have : (s.axis a).config.checkActs = false := by
      rcases hno with hno | hno <;> simp [AxisConfig.checkActs, hno]
    simp [useIndex, hst, this]
  · simp [useIndex, hst, hh, hq, Qualifier.admits_opposite]

/-- R36: the index check acts on a REFERENCED axis. -/
theorem useIndex_checked {s : State} {a : AxisNo} (d : Direction) (hst : (s.axis a).state = .referenced)
    (hm : (s.axis a).config.mode = .quadIndex) (hcheck : (s.axis a).config.indexCheck = true)
    (hmod : (s.axis a).config.modulus ≠ 0) : useIndex a d s = checkIndex a s := by
  simp [useIndex, hst, AxisConfig.checkActs, hm, hcheck, hmod]

/-- R32: an index arrival that the qualifier admits completes homing. -/
theorem useIndex_homing {s : State} {a : AxisNo} {d : Direction} {h : Homing} (hst : (s.axis a).state = .seeking)
    (hh : (s.axis a).homing = some h) (hq : h.qualifier.admits d = true) : useIndex a d s = completeHoming a h s := by
  simp [useIndex, hst, hh, hq]

/-- R31 to R34: the end of homing leaves no homing context. -/
theorem State.endHoming_homing (s : State) (a : AxisNo) (h : Homing) (new : AxisState) (cause : StateCause) (st : Status)
    (l : List Byte) : ((s.endHoming a h new cause st l).axis a).homing = none := by
  rw [State.endHoming, endDeferred_eq]
  simp [State.changeState]

/-- R37: a fault leaves no homing context. -/
theorem takeFault_homing (a : AxisNo) (kind : FaultKind) (s : State) : ((takeFault a kind s).axis a).homing = none := by
  rw [takeFault_eq]
  split
  · simp
  · rw [endDeferred_eq]; simp

/-- R31: an axis without a homing context has no travel limit to reach. -/
theorem judgeTravel_idle {s : State} {a : AxisNo} (h : (s.axis a).homing = none) : judgeTravel a s = s :=
  judgeTravel_below fun k hk => by simp [h] at hk

/-! ## The statements -/

/-- Settles O11: the step taken, with its move said by `moveOne_eq`. -/
theorem stepsMoveTheAxis : Obligations.StepsMoveTheAxis := by
  unfold Obligations.StepsMoveTheAxis
  refine ⟨?_, fun s a dir rest hrun hres harr => (whenRunning_running hrun).trans (congrArg _ (takeSkip_skip hres harr))⟩
  rintro s a x d dir inferred rest hrun rfl rfl hres harr hcounts hpos hturns
  refine ⟨_, _, moveOne_eq dir hpos hturns, _, (Axis.stepped1_eq dir inferred harr), ?_, ?_⟩
  · intro h
    refine (whenRunning_running hrun).trans (congrArg _ ((takeStep_counts hres harr hcounts).trans ?_))
    rcases h with hz | hbelow
    · rw [if_neg (by simp [Option.isNone_iff_eq_none, Option.isSome_iff_ne_none.mp hz])]
    · rw [judgeTravel_below (by rwa [State.axis_setAxis]), ite_self]
  · intro h l hz hh hl hle
    refine (whenRunning_running hrun).trans (congrArg _ ((takeStep_counts hres harr hcounts).trans ?_))
    rw [if_pos (by simp [hz]), judgeTravel_reached (by rwa [State.axis_setAxis]) (by rwa [State.axis_setAxis]) hle,
      State.endHoming, State.changeState, State.axis_setAxis, State.setAxis_twice]
    rfl

/-- Settles O12: the index arrival completes homing, after which no travel is left to judge. -/
theorem indexEndsHoming : Obligations.IndexEndsHoming := by
  unfold Obligations.IndexEndsHoming
  refine ⟨fun n hn => if_pos hn, ?_⟩
  rintro s a x h hdue rfl hst hh hq
  rw [exec_indexArrival hdue (by simp [AxisState.counts, hst])
    (useIndex_homing hst hh (Qualifier.admits_iff.mpr hq)), completeHoming,
    judgeTravel_idle (State.endHoming_homing ..)]
  simp [State.endHoming, State.changeState, hst]

/-- R31: a report of an index arrival leaves the travel below its limit. -/
theorem judgeTravel_reportIndex {s : State} {a : AxisNo} (hbelow : BelowTravelLimit (s.axis a)) (drift : Option Int)
    (corrected : Bool) : judgeTravel a (s.reportIndex a drift corrected) = s.reportIndex a drift corrected :=
  judgeTravel_below (by rwa [State.reportIndex_axis])

/-- R36: within the tolerance the drift is reported and, with correction on, the position jumps to H. -/
theorem checkIndex_within {s : State} {a : AxisNo} {r : Int}
    (hr : (s.axis a).config.drift (s.axis a).position = r) (htol : r.natAbs ≤ (s.axis a).config.tolerance)
    (hturns : InInt32 (s.axis a).turns) :
    checkIndex a s = (s.reportIndex a (some r) (s.axis a).config.correction).setAxis a
      (if (s.axis a).config.correction then
        { s.axis a with
          position := (s.axis a).config.homeOffset
          turns := if (s.axis a).position - r < 0 then nextDown (s.axis a).turns
            else if (s.axis a).position - r ≥ (s.axis a).config.modulus then nextUp (s.axis a).turns else (s.axis a).turns }
       else s.axis a) := by
  simp only [checkIndex, hr, if_pos htol, State.reportIndex_axis, correctedTurns, wrap32_up hturns, wrap32_down hturns]
  split
  · rfl
  · conv_lhs => rw [← State.setAxis_self (s.reportIndex a (some r) (s.axis a).config.correction) a, State.reportIndex_axis]

/-- R36, R37: beyond the tolerance the axis faults. -/
theorem checkIndex_beyond {s : State} {a : AxisNo} {r : Int}
    (hr : (s.axis a).config.drift (s.axis a).position = r) (htol : (s.axis a).config.tolerance < r.natAbs) :
    checkIndex a s = takeFault a .indexDrift (s.reportIndex a (some r) false) := by
  simp only [checkIndex, hr, if_neg (Nat.not_le.mpr htol)]

/-- Settles O13: by what an index arrival serves; then the travel limit is judged. -/
theorem indexIsReportedOrChecked : Obligations.IndexIsReportedOrChecked := by
  unfold Obligations.IndexIsReportedOrChecked
  refine ⟨?_, ?_, ?_, ?_⟩
  · rintro s a x hdue rfl hbelow hst
    have hcounts : (s.axis a).state.counts = true := by
      rcases hst with hst | ⟨hst, -⟩ | ⟨hst, -⟩ <;> rw [hst] <;> rfl
    rw [exec_indexArrival hdue hcounts (useIndex_reported hst), judgeTravel_reportIndex (by exact hbelow)]
    rfl
  · rintro s a x r k hdue rfl hbelow hst hcheck hmod hturns hdrift hlow hhigh
    have hr := AxisConfig.drift_eq hmod hdrift hlow hhigh
    have used := exec_indexArrival hdue (by rw [hst]; rfl) (useIndex_checked _ hst hdue.2.2.2.2.1 hcheck hmod)
    refine ⟨fun htol => used.trans ?_, fun htol => used.trans ?_⟩
    · rw [checkIndex_within (by exact hr) (by exact htol) (by exact hturns), judgeTravel_below]
      · rfl
      · rw [State.axis_setAxis]
        split <;> exact hbelow
    · rw [checkIndex_beyond (by exact hr) (by exact htol), judgeTravel_idle (takeFault_homing ..)]
      rfl
  · rintro s a e hz hcase
    refine (whenRunning_running hz.1).trans (congrArg _ ?_)
    by_cases hn : (s.axis a).config.mode = .quadIndex ∧ (s.axis a).state.counts = true
    · rw [takeIndex_counts hz hn.1 hn.2]
      rcases hcase with hst | hst | hm | ⟨hbelow, hedge⟩
      · exact absurd hn.2 (by simp [hst, AxisState.counts])
      · exact absurd hn.2 (by simp [hst, AxisState.counts])
      · exact absurd hn.1 hm
      · rw [indexEdge_eq_false hedge, if_neg (by simp), judgeTravel_below (by exact hbelow)]
    · exact takeIndex_dropped hz hn
  · rintro s judged a e x h limit hz rfl hm hst hh hl hle hcase
    refine (whenRunning_running hz.1).trans (congrArg _ ?_)
    have hjudged : takeIndex a s = judgeTravel a judged ∧ judged.axis a = s.axis a := by
      rw [takeIndex_counts hz hm (by rw [hst]; rfl)]
      rcases hcase with ⟨hedge, rfl⟩ | ⟨hedge, hq, rfl⟩
      · rw [indexEdge_eq_false hedge]
        exact ⟨rfl, rfl⟩
      · have hgives : indexEdge e (s.decoder a).direction = true := by
          rcases hedge with ⟨hz', hd⟩ | ⟨hz', hd⟩ <;> rw [hz.2.2.2.2] at hz' <;> cases hz' <;> rw [hd] <;> rfl
        have used := useIndex_reported (s := s.setDecoder a { s.decoder a with zDue := none })
          (.inr (.inr ⟨hst, h, hh, hq⟩))
        rw [if_pos hgives, used]
        exact ⟨rfl, by split <;> rfl⟩
    rw [hjudged.1, judgeTravel_reached (by rw [hjudged.2]; exact hh) (by rw [hjudged.2]; exact hl) hle,
      State.endHoming, State.changeState, hjudged.2, hst]

/-- Settles O14: by `takeFault_eq`. -/
theorem faultsFreezeTheAxis : Obligations.FaultsFreezeTheAxis := by
  unfold Obligations.FaultsFreezeTheAxis
  rintro s a kind x faulted rfl rfl
  exact takeFault_eq a kind s

/-- Settles O15: either timer, by whether its moment has come. -/
theorem axisTimersExpire : Obligations.AxisTimersExpire := by
  unfold Obligations.AxisTimersExpire
  rintro s a x hrun rfl
  refine ⟨fun h stop hh htimer => ?_, fun stop htimer => ?_⟩
  · refine (whenRunning_running hrun).trans (congrArg _ ?_)
    simp [takeHomingExpiry, hh, State.reached, htimer, State.endHoming, State.changeState]
  · refine (whenRunning_running hrun).trans (congrArg _ ?_)
    simp [takeGateExpiry, htimer, Config.periodsPerMilli]

end Sys2Proof.Machine

/-!
PROOF. Fields and their bytes (10.1), in both directions, and the codes of the enumerations (10.4).
-/

namespace Sys2Proof.Machine

/-! ## Fields as bytes -/

/-- A byte from its number. -/
@[simp] theorem byte8_toNat (b : Byte) : byte8 b.toNat = b := by simp [byte8]

/-- 10.1: the bytes of a 16-bit field, most significant first. -/
theorem bytes16_append (x y : Byte) : bytes16 (x ++ y) = [x, y] :=
  congrArg₂ (fun a b => [a, b]) BitVec.extractLsb'_append_eq_left BitVec.extractLsb'_append_eq_right

/-- 10.1: the bytes of a 32-bit field, most significant first. -/
theorem bytes32_append (x y : Word16) : bytes32 (x ++ y) = bytes16 x ++ bytes16 y := by
  have high (k : Nat) : BitVec.extractLsb' (16 + k) 8 (x ++ y) = BitVec.extractLsb' k 8 x :=
    (BitVec.extractLsb'_append_eq_of_le (by omega)).trans (by simp)
  have low (k : Nat) (hk : k + 8 ≤ 16) : BitVec.extractLsb' k 8 (x ++ y) = BitVec.extractLsb' k 8 y :=
    BitVec.extractLsb'_append_eq_of_add_le hk
  rw [bytes32, bytes16, bytes16, high 8, high 0, low 8 (by omega), low 0 (by omega)]
  rfl

/-- The bytes of a field read as a number. -/
@[simp] theorem nat16_toNat (x : Word16) : nat16 x.toNat = bytes16 x := by simp [nat16]

/-- The bytes of a field read as a number. -/
@[simp] theorem nat32_toNat (x : Word32) : nat32 x.toNat = bytes32 x := by simp [nat32]

/-- The bytes of a field read as a signed number. -/
@[simp] theorem int32_toInt (x : Word32) : int32 x.toInt = bytes32 x := by simp [int32]

/-! ## Bytes as fields -/

/-- A 16-bit field put together from its bytes. -/
@[simp] theorem append_bytes16 (x : Word16) : x.extractLsb' 8 8 ++ x.extractLsb' 0 8 = x :=
  (BitVec.extractLsb'_append_extractLsb'_eq_extractLsb' rfl).trans BitVec.extractLsb'_eq_self

/-- A 32-bit field put together from its bytes. -/
@[simp] theorem append_bytes32 (x : Word32) :
    (x.extractLsb' 24 8 ++ x.extractLsb' 16 8 : Word16) ++ (x.extractLsb' 8 8 ++ x.extractLsb' 0 8 : Word16) = x := by
  have half (k : Nat) : (x.extractLsb' (k + 8) 8 ++ x.extractLsb' k 8 : Word16) = x.extractLsb' k 16 :=
    BitVec.extractLsb'_append_extractLsb'_eq_extractLsb' rfl
  rw [half 16, half 0]
  exact (BitVec.extractLsb'_append_extractLsb'_eq_extractLsb' rfl).trans BitVec.extractLsb'_eq_self

/-- A 16-bit field is read as it was written. -/
theorem arg16_bytes16 (x : Word16) (l : List Byte) : arg16 (bytes16 x ++ l) 0 = x := append_bytes16 x

/-- A 32-bit field is read as it was written. -/
theorem arg32_bytes32 (x : Word32) (l : List Byte) : arg32 (bytes32 x ++ l) 0 = x := append_bytes32 x

/-- A number that fits a 16-bit field is read as it was written. -/
theorem toNat_ofNat16 {n : Nat} (h : n ≤ 65535) : (BitVec.ofNat 16 n).toNat = n := by
  simp; omega

/-- A number that fits a 32-bit field is read as it was written. -/
theorem toNat_ofNat32 {n : Nat} (h : n ≤ 4294967295) : (BitVec.ofNat 32 n).toNat = n := by
  simp; omega

/-- A signed number that fits a 32-bit field is read as it was written. -/
theorem toInt_ofInt32 {x : Int} (h : InInt32 x) : (BitVec.ofInt 32 x).toInt = x := by
  rw [BitVec.toInt_ofInt, Int.bmod_eq_of_le] <;> omega

/-! ## Codes (10.4) -/

/-- An input mode is read from its code, and from no other byte. -/
theorem inputModeOf_iff {b : Byte} {x : InputMode} : inputModeOf b = some x ↔ x.code = b := by
  cases x <;> revert b <;> decide

/-- A qualifier is read from its code, and from no other byte. -/
theorem qualifierOf_iff {b : Byte} {x : Qualifier} : qualifierOf b = some x ↔ x.code = b := by
  cases x <;> revert b <;> decide

/-- A verdict is read from its code, and from no other byte. -/
theorem verdictOf_iff {b : Byte} {x : Verdict} : verdictOf b = some x ↔ x.code = b := by
  cases x <;> revert b <;> decide

/-- A tally mode is read from its code, and from no other byte. -/
theorem tallyModeOf_iff {b : Byte} {x : TallyMode} : tallyModeOf b = some x ↔ x.code = b := by
  cases x <;> revert b <;> decide

/-- An on/off option is read from its code, and from no other byte. -/
theorem onOffOf_iff {b : Byte} {x : Bool} : onOffOf b = some x ↔ onOff x = b := by
  cases x <;> revert b <;> decide

/-- A number that no qualifier has as its code. -/
theorem qualifierOf_eq_none {b : Byte} : qualifierOf b = none ↔ 2 < b.toNat := by
  revert b; decide

end Sys2Proof.Machine

/-!
PROOF. The axis requests (chapter 2), and the bytes of a configuration that is read. They settle O16, O17, O18 and O19.
-/

namespace Sys2Proof.Machine

/-- What a request that names an axis and is executing does. -/
theorem exec_onAxis {n : RequestName} {a : AxisNo} {r : Request} {s t : State} {act : AxisNo → Request → State → State}
    (hex : ExecutingOn n a r s) (h : act a r s = t) : whenRunning (executeOnAxis n act) s = .next t :=
  (whenRunning_running hex.1.1).trans (congrArg _ ((executeOnAxis_executing act hex).trans h))

/-- R48: a request that may move the position waits while an arrival is held. -/
theorem afterArrival_held {a : AxisNo} {s : State} (h : (s.axis a).arrival.isSome = true)
    (act : AxisNo → Request → State → State) (r : Request) : afterArrival act a r s = s := if_pos h

/-- R48: a request that may move the position is taken when no arrival is held. -/
theorem afterArrival_clear {a : AxisNo} {s : State} (h : (s.axis a).arrival = none)
    (act : AxisNo → Request → State → State) (r : Request) : afterArrival act a r s = act a r s := if_neg (by simp [h])

/-! ## CONFIGURE_AXIS (R22) -/

section
variable {s : State} {a : AxisNo} (r : Request)

theorem configureAxis_wrongState (hst : (s.axis a).state ≠ .disabled) :
    configureAxis a r s = answer r .wrongState [] s := if_pos hst

theorem configureAxis_badArgument (hst : (s.axis a).state = .disabled) (hc : axisConfigOf r.args = none) :
    configureAxis a r s = answer r .badArgument [] s := by
  simp [configureAxis, hst, hc]

/-- R22: a configuration that is read is taken, unless it changes the modulus of an axis that has marks. -/
theorem configureAxis_read {c : AxisConfig} (hst : (s.axis a).state = .disabled) (hc : axisConfigOf r.args = some c) :
    configureAxis a r s =
      if c.modulus ≠ (s.axis a).config.modulus ∧ s.markList a ≠ [] then answer r .wrongState [] s
      else answer r .ok [] ((s.setAxis a ((s.axis a).configured c)).newSensorDepth a) := by
  simp [configureAxis, hst, hc]

end

/-- R22: a change of modulus sets position and turns to 0. -/
theorem Axis.configured_eq (x : Axis) (c : AxisConfig) :
    x.configured c =
      { x with
        config := c
        position := if c.modulus = x.config.modulus then x.position else 0
        turns := if c.modulus = x.config.modulus then x.turns else 0 } := by
  unfold Axis.configured
  split <;> rfl

/-- R3: a new depth restarts the run of every sensor filter of the axis. -/
theorem State.newSensorDepth_eq (s : State) (a : AxisNo) :
    s.newSensorDepth a = s.setSensorFilter a ((s.sensorFilter a).map fun f => { f with run := 0 }) := by
  refine congrArg (s.setSensorFilter a) (Vector.ext fun i hi => ?_)
  rw [Vector.getElem_map]
  rcases i with _ | _ | _ | i
  · rfl
  · rfl
  · rfl
  · omega

/-! ## A configuration and its bytes (10.5.2) -/

/-- A list is the list of the bytes at its places. -/
theorem map_arg8_range (l : List Byte) : (List.range l.length).map (arg8 l) = l := by
  refine List.ext_getElem (by simp) fun i h _ => ?_
  have hi : i < l.length := by simpa using h
  simp [arg8, hi]

/-- 10.1: 0 stands for no limit. -/
theorem limitOf_getD (n : Nat) : (limitOf n).getD 0 = n := by
  unfold limitOf
  split <;> simp_all

/-- 10.5.2: a configuration is read only from the bytes that it is written as. -/
theorem AxisConfig.bytes_of_read {b : Byte} {l : List Byte} {c : AxisConfig} (hl : l.length = 23)
    (h : axisConfigOf (b :: l) = some c) : c.bytes = l := by
  have hbytes : (List.range 23).map (arg8 l) = l := hl ▸ map_arg8_range l
  unfold axisConfigOf at h
  split at h
  · next mode invert reports check correction hmode hinvert hreports hcheck hcorr =>
    dsimp only at h
    split at h
    · obtain rfl := Option.some.inj h
      simp only [AxisConfig.bytes, inputModeOf_iff.mp hmode, onOffOf_iff.mp hinvert, onOffOf_iff.mp hreports,
        onOffOf_iff.mp hcheck, onOffOf_iff.mp hcorr, byte8_toNat, limitOf_getD, nat32_toNat, nat16_toNat, argInt, int32_toInt,
        arg32, arg16, bytes32_append, bytes16_append]
      exact hbytes
    · cases h
  · cases h

/-! ## ENABLE_AXIS, DISABLE_AXIS, CLEAR_FAULT, SET_POSITION -/

/-- R9: the decoder of an axis that is enabled. -/
theorem startDecoder_eq (m : InputMode) (f : Vector Filter 3) (d : Decoder) :
    startDecoder m f d =
      { current :=
          (match patternOf m f with
           | some p => if (phaseOf m p).isSome then p else d.current
           | none => d.current)
        direction := .up
        awaiting :=
          (match patternOf m f with
           | some p => (phaseOf m p).isNone
           | none => true)
        patternDue := false, zDue := none, results := [] } := by
  unfold startDecoder
  cases hp : patternOf m f with
  | none => rfl
  | some p => cases hq : phaseOf m p <;> simp [hq, Decoder.reset]

/-- R29: SET_POSITION, its option byte read. -/
theorem setPosition_read {s : State} {a : AxisNo} {r : Request} {reference : Bool}
    (href : onOffOf (arg8 r.args 5) = some reference) :
    setPosition a r s =
      if (s.axis a).state ≠ .free ∧ (s.axis a).state ≠ .referenced then answer r .wrongState [] s
      else if positionInRange (s.axis a).config.modulus (argInt r.args 1) = false then answer r .badArgument [] s
      else if (s.axis a).state = .free ∧ reference = true then
        answer r .ok [] ((s.setAxis a { s.axis a with position := argInt r.args 1, state := .referenced }).formRecord
          (.state a .free .referenced .request))
      else answer r .ok [] (s.setAxis a { s.axis a with position := argInt r.args 1 }) := by
  cases hst : (s.axis a).state <;> cases hp : positionInRange (s.axis a).config.modulus (argInt r.args 1) <;>
    cases reference <;> simp [setPosition, href, hst, hp, jumpTo, State.changeState]

/-- Settles O16: the checks in their order, and `axisConfigOf_fits` and `AxisConfig.bytes_of_read` of what is read. -/
theorem configureAxisIsJudged : Obligations.ConfigureAxisIsJudged := by
  unfold Obligations.ConfigureAxisIsJudged
  refine ⟨?_, fun l c => axisConfigOf_fits, fun b l c hl h => AxisConfig.bytes_of_read hl h⟩
  rintro s a r x hex rfl
  refine ⟨fun h => ?_, fun h hst => ?_, fun h hst hc => ?_, fun c h hst hc => ?_⟩
  · exact exec_onAxis hex (afterArrival_held h ..)
  · exact exec_onAxis hex ((afterArrival_clear h ..).trans (configureAxis_wrongState r hst))
  · exact exec_onAxis hex ((afterArrival_clear h ..).trans (configureAxis_badArgument r hst hc))
  · refine exec_onAxis hex ((afterArrival_clear h ..).trans ((configureAxis_read r hst hc).trans ?_))
    rw [Axis.configured_eq, State.newSensorDepth_eq]
    rfl

/-- Settles O17: each request by its checks. -/
theorem axisRequestsAreTaken : Obligations.AxisRequestsAreTaken := by
  unfold Obligations.AxisRequestsAreTaken
  rintro s a r x rfl
  refine ⟨?_, ?_, ?_, ?_, ?_, ?_, ?_, ?_, ?_⟩
  · exact fun hex h => exec_onAxis hex (afterArrival_held h ..)
  · exact fun hex h => exec_onAxis hex (afterArrival_held h ..)
  · refine fun hex h => ⟨fun hst => ?_, fun hst hp => ?_⟩ <;>
      refine exec_onAxis hex ((afterArrival_clear h ..).trans ?_)
    · simp [enableAxis, hst]
    · simp [enableAxis, hst, hp]
  · intro hex h hst hp
    refine exec_onAxis hex ((afterArrival_clear h ..).trans ?_)
    simp only [enableAxis, hst, hp, startDecoder_eq, State.changeState, Axis.enabled, Axis.startGate]
    rfl
  · intro hex hst
    refine ⟨_, rfl, exec_onAxis hex ?_⟩
    simp only [disableAxis, if_neg hst]
    rfl
  · exact fun hex hst => exec_onAxis hex (if_pos hst)
  · intro hex
    refine exec_onAxis hex ?_
    by_cases hst : (s.axis a).state = .faulted
    · simp [clearFault, hst, State.changeState, Axis.startGate, Config.periodsPerMilli]
    · simp [clearFault, hst]
  · intro hex h href
    refine exec_onAxis hex ((afterArrival_clear h ..).trans ?_)
    simp [setPosition, href]
  · exact fun reference hex h href => exec_onAxis hex ((afterArrival_clear h ..).trans (setPosition_read href))

/-- Settles O18: the checks in their order. -/
theorem homeIsJudged : Obligations.HomeIsJudged := by
  unfold Obligations.HomeIsJudged
  rintro s a r x hex rfl
  refine ⟨fun hq => exec_onAxis hex ?_, fun q hq => exec_onAxis hex ?_⟩
  · simp [home, qualifierOf_eq_none.mpr hq]
  · have hbusy : (s.handler.homeOn a).isSome = s.handler.table.any (fun d => d.kind == .home a) :=
      Bool.eq_iff_iff.mpr (by simp [Handler.homeOn])
    simp only [home, hq, hbusy]
    rfl

/-- Settles O19: the results field by field. -/
theorem queryAxisReadsTheAxis : Obligations.QueryAxisReadsTheAxis := by
  unfold Obligations.QueryAxisReadsTheAxis
  rintro s a r x d hex rfl rfl
  refine ⟨fun h => exec_onAxis hex (if_pos h), fun h => ?_⟩
  refine ⟨s.shownPattern a, if (s.decoder a).awaiting then s.draws + 1 else s.draws, fun hw => ?_,
    exec_onAxis hex ((if_neg (by simp [h])).trans ?_)⟩
  · simp [State.shownPattern, hw]
  · simp only [queryAxis, State.axisBytes]
    cases (s.axis a).lastFault <;> cases (s.axis a).homing <;> cases (s.decoder a).awaiting <;>
      by_cases hst : (s.axis a).state = .seeking <;> simp [hst, optionalBytes]

end Sys2Proof.Machine

/-!
PROOF. The mark entry (10.6): its bytes, how it is read, and which entries are valid (R44).
-/

namespace Sys2Proof.Machine

/-! ## The bytes of a mark entry -/

/-- 10.6: the bytes that a mark entry is read from. -/
def RawMark.bytes (w : RawMark) : List Byte :=
  bytes16 w.tag ++ int32 w.position ++ [w.qualifier] ++ optionalBytes (w.count.map nat16) ++ optionalBytes (w.pitch.map int32)
    ++ optionalBytes (w.pulse.map fun b => [b]) ++ optionalBytes (w.capture.map fun b => [b])
    ++ optionalBytes (w.release.map fun x => x.1 :: bytes16 x.2) ++ [w.report]

/-- An optional field is read as it was written, when its value is. -/
theorem readOptional_written {α : Type} {size : Nat} {f : List Byte → α} {write : α → List Byte} {o : Option α}
    (h : ∀ x ∈ o, (write x).length = size ∧ ∀ l, f (write x ++ l) = x) (l : List Byte) :
    readOptional size f (optionalBytes (o.map write) ++ l) = (o, l) := by
  cases o with
  | none => rfl
  | some x =>
    obtain ⟨hlen, hread⟩ := h x rfl
    have hone : arg8 (optionalBytes ((some x).map write) ++ l) 0 = 1 := rfl
    rw [readOptional, if_pos hone]
    refine Prod.ext (congrArg some (hread l)) ?_
    simp [optionalBytes, ← hlen, Nat.add_comm 1]

/-- 10.6: a mark entry is read as it was written. -/
theorem readMark_written {w : RawMark} (hw : w.Fits) (rest : List Byte) : readMark (w.bytes ++ rest) = (w, rest) := by
  obtain ⟨hposition, hcount, hpitch⟩ := hw
  have one (o : Option Byte) := readOptional_written (size := 1) (f := fun x => arg8 x 0) (write := fun b => [b]) (o := o)
    fun _ _ => ⟨rfl, fun _ => rfl⟩
  have count := readOptional_written (size := 2) (f := fun x => (arg16 x 0).toNat) (write := nat16) (o := w.count)
    fun n hn => ⟨rfl, fun l => (congrArg BitVec.toNat (arg16_bytes16 ..)).trans (toNat_ofNat16 (hcount n hn))⟩
  have pitch := readOptional_written (size := 4) (f := fun x => argInt x 0) (write := int32) (o := w.pitch)
    fun p hp => ⟨rfl, fun l => (congrArg BitVec.toInt (arg32_bytes32 ..)).trans (toInt_ofInt32 (hpitch p hp))⟩
  have release := readOptional_written (size := 3) (f := fun x => (arg8 x 0, arg16 x 1))
    (write := fun x => x.1 :: bytes16 x.2) (o := w.release) fun x _ => ⟨rfl, fun l => Prod.ext rfl (append_bytes16 x.2)⟩
  have htag : arg16 (w.bytes ++ rest) 0 = w.tag := append_bytes16 w.tag
  have hpos : argInt (w.bytes ++ rest) 2 = w.position :=
    (congrArg BitVec.toInt (append_bytes32 _)).trans (toInt_ofInt32 hposition)
  have hqual : arg8 (w.bytes ++ rest) 6 = w.qualifier := rfl
  have hdrop : (w.bytes ++ rest).drop 7 =
      optionalBytes (w.count.map nat16) ++ (optionalBytes (w.pitch.map int32) ++ (optionalBytes (w.pulse.map fun b => [b])
        ++ (optionalBytes (w.capture.map fun b => [b]) ++ (optionalBytes (w.release.map fun x => x.1 :: bytes16 x.2)
          ++ w.report :: rest)))) := by
    simp [RawMark.bytes, bytes16, int32, bytes32]
  simp only [readMark, htag, hpos, hqual, hdrop, count, pitch, one, release]
  rfl

/-! ## Which mark entries are valid (R44) -/

/-- An optional part is judged well when it is absent, or read. -/
theorem judgeOptional_eq_some {α β : Type} {f : α → Option β} {o : Option α} {o' : Option β} :
    judgeOptional f o = some o' ↔ o.map f = o'.map some := by
  cases o with
  | none => cases o' <;> simp [judgeOptional]
  | some x => cases hx : f x <;> cases o' <;> simp [judgeOptional, hx]

/-- A capture axis set is read as it is written, unless it is empty. -/
theorem captureSetOf_eq_some {b : Byte} {x : AxisSet} : captureSetOf b = some x ↔ x ≠ 0 ∧ byte8 x.toNat = b := by
  revert b x; decide

/-- A trigger line is read from its number as a byte. -/
theorem triggerOf_iff {b : Byte} {n : TriggerNo} : triggerOf b = some n ↔ byte8 n.val = b := by
  revert b n; decide

/-- An axis is read from its number as a byte. -/
theorem axisOf_iff {b : Byte} {a : AxisNo} : axisOf b = some a ↔ byte8 a.val = b := by
  revert b a; decide

/-- A release target is read from its axis as a byte and its tag. -/
theorem releaseOf_eq_some {x : Byte × Word16} {y : AxisNo × Word16} :
    releaseOf x = some y ↔ (byte8 y.1.val, y.2) = x := by
  obtain ⟨b, tag⟩ := x
  obtain ⟨a, tag'⟩ := y
  unfold releaseOf
  cases h : axisOf b with
  | none => simpa using fun e => by simp [axisOf_iff.mpr e] at h
  | some t =>
    simp only [Option.some.injEq, Prod.mk.injEq, ← axisOf_iff, h]
    exact and_congr_right fun _ => eq_comm

/-- A count is read from its number, which is not 0, and ENDLESS from none. -/
theorem countOf_eq_some {n : Option Nat} {x : Firings} :
    countOf n = some x ↔ n ≠ some 0 ∧ x = (match n with | none => .endless | some k => .counted k) := by
  rcases n with _ | _ | n <;> simp [countOf, eq_comm]

/-- R44: an entry is valid when each of its parts is read and they fit together; it then gives the mark of these parts. -/
theorem RawMark.judge_eq_some {w : RawMark} {modulus : Nat} {armed : Bool} {m : Mark} :
    w.judge modulus armed = some m ↔
      ∃ q count pulse capture release report,
        qualifierOf w.qualifier = some q ∧ countOf w.count = some count ∧ judgeOptional triggerOf w.pulse = some pulse
        ∧ judgeOptional captureSetOf w.capture = some capture ∧ judgeOptional releaseOf w.release = some release
        ∧ onOffOf w.report = some report
        ∧ (positionInRange modulus w.position = true ∧ pitchFits modulus count w.pitch = true
          ∧ (pulse.isSome = true ∨ capture.isSome = true ∨ release.isSome = true ∨ report = true))
        ∧ m = { tag := w.tag, position := w.position, qualifier := q, count := count, pitch := w.pitch, armed := armed,
                pulse := pulse, capture := capture, release := release, report := report } := by
  constructor
  · intro h
    unfold RawMark.judge at h
    split at h
    · next q count pulse capture release report h1 h2 h3 h4 h5 h6 =>
      split at h
      · next hfits => exact ⟨q, count, pulse, capture, release, report, h1, h2, h3, h4, h5, h6, hfits, (Option.some.inj h).symm⟩
      · cases h
    · cases h
  · rintro ⟨q, count, pulse, capture, release, report, h1, h2, h3, h4, h5, h6, hfits, rfl⟩
    simp only [RawMark.judge, h1, h2, h3, h4, h5, h6]
    exact if_pos hfits

/-! ## A mark as an entry (R63) -/

/-- R63: the entry that shows a mark. -/
def Mark.raw (m : Mark) : RawMark :=
  { tag := m.tag, position := m.position, qualifier := m.qualifier.code
    count := (match m.count with | .endless => none | .counted n => some n)
    pitch := m.shownPitch, pulse := m.pulse.map fun n => byte8 n.val, capture := m.capture.map fun x => byte8 x.toNat
    release := m.release.map fun x => (byte8 x.1.val, x.2), report := onOff m.report }

/-- 10.6: the bytes of a mark are those of its entry. -/
theorem Mark.bytes_raw (m : Mark) : m.bytes = m.raw.bytes := by
  have hset (x : AxisSet) : BitVec.zeroExtend 8 x = byte8 x.toNat := by revert x; decide
  simp only [Mark.bytes, RawMark.bytes, Mark.raw, Option.map_map, Function.comp_def, hset]
  cases m.count <;> rfl

/-- R45: the entry of a mark that stands on a list has its numbers in range. -/
theorem Mark.raw_fits {m : Mark} {modulus : Nat} (hmod : modulus ≤ 16777216) (h : m.Fits modulus) : m.raw.Fits := by
  obtain ⟨⟨hlinear, hmodular⟩, hcount, -, hpitch, -⟩ := h
  refine ⟨?_, fun n hn => ?_, fun p hp => ?_⟩
  · show InInt32 m.position
    by_cases h0 : modulus = 0
    · exact hlinear h0
    · have := hmodular h0
      exact ⟨by omega, by omega⟩
  · simp only [Mark.raw] at hn
    split at hn
    · cases hn
    · next k hk =>
      obtain rfl := Option.some.inj hn
      exact (hcount _ hk).2
  · simp only [Mark.raw, Mark.shownPitch] at hp
    split at hp
    · cases hp
    · exact (hpitch p hp).2.1

/-- R44, R63: the entry of a mark that stands on a list is valid, and gives the mark with its pitch as shown. -/
theorem Mark.judge_raw {m : Mark} {modulus : Nat} (h : m.Fits modulus) :
    m.raw.judge modulus m.armed = some { m with pitch := m.shownPitch } := by
  obtain ⟨hposition, hcount, hnone, hpitch, hactions, hcapture⟩ := h
  refine RawMark.judge_eq_some.mpr ⟨m.qualifier, m.count, m.pulse, m.capture, m.release, m.report, qualifierOf_iff.mpr rfl, ?_,
    ?_, ?_, ?_, onOffOf_iff.mpr rfl, ⟨?_, ?_, hactions⟩, rfl⟩
  · cases hc : m.count with
    | endless => simp [Mark.raw, hc, countOf]
    | counted n => simpa [Mark.raw, hc, countOf_eq_some] using Nat.one_le_iff_ne_zero.mp (hcount n hc).1
  · refine judgeOptional_eq_some.mpr ?_
    cases hp : m.pulse with
    | none => simp [Mark.raw, hp]
    | some n => simpa [Mark.raw, hp] using triggerOf_iff.mpr rfl
  · refine judgeOptional_eq_some.mpr ?_
    cases hp : m.capture with
    | none => simp [Mark.raw, hp]
    | some x => simpa [Mark.raw, hp] using captureSetOf_eq_some.mpr ⟨hcapture x hp, rfl⟩
  · refine judgeOptional_eq_some.mpr ?_
    cases hp : m.release with
    | none => simp [Mark.raw, hp]
    | some x => simpa [Mark.raw, hp] using releaseOf_eq_some.mpr rfl
  · show positionInRange modulus m.position = true
    by_cases h0 : modulus = 0
    · simp [positionInRange, h0]
    · simpa [positionInRange, h0] using hposition.2 h0
  · show pitchFits modulus m.count m.shownPitch = true
    by_cases h1 : m.count = .counted 1
    · simp [Mark.shownPitch, h1, pitchFits]
    · cases hp : m.pitch with
      | none => exact absurd (hnone hp) h1
      | some p =>
        obtain ⟨hp0, -, hsize⟩ := hpitch p hp
        by_cases h0 : modulus = 0 <;> simp [Mark.shownPitch, h1, hp, pitchFits, hp0, h0]
        exact hsize h0

end Sys2Proof.Machine

/-!
PROOF. The mark requests and the order of the lists (chapter 3). They settle O20, O22 and O23.
-/

namespace Sys2Proof.Machine

/-- What a request that is executing does. -/
theorem exec_request {n : RequestName} {r : Request} {s t : State} {act : Request → State → State}
    (hex : Executing n r s) (h : act r s = t) : whenRunning (executeAs n act) s = .next t :=
  (whenRunning_running hex.1).trans (congrArg _ ((executeAs_executing act hex).trans h))

/-! ## The order of a list (R43) -/

/-- R43: a mark enters an ordered list after the marks at its position or a lesser one, and before the others. -/
theorem insertMark_eq_filter {m : Mark} {l : List Mark} (h : l.Pairwise fun x y => x.position ≤ y.position) :
    insertMark m l =
      l.filter (fun x => x.position ≤ m.position) ++ m :: l.filter (fun x => m.position < x.position) := by
  induction l with
  | nil => rfl
  | cons x xs ih =>
    obtain ⟨hx, hxs⟩ := List.pairwise_cons.mp h
    by_cases hle : x.position ≤ m.position
    · simp [insertMark, hle, Int.not_lt.mpr hle, ih hxs]
    · have hlt : m.position < x.position := by omega
      have low : xs.filter (fun y => y.position ≤ m.position) = [] :=
        List.filter_eq_nil_iff.mpr fun y hy => by have := hx y hy; simp; omega
      have high : xs.filter (fun y => m.position < y.position) = xs :=
        List.filter_eq_self.mpr fun y hy => by have := hx y hy; simp; omega
      simp [insertMark, hle, hlt, low, high]

/-! ## Validity of entries (R44) -/

/-- An optional part is judged well when it is absent, or read. -/
theorem judgeOptional_isSome {α β : Type} {f : α → Option β} {o : Option α} :
    (judgeOptional f o).isSome = true ↔ ∀ x ∈ o, (f x).isSome = true := by
  cases o with
  | none => simp [judgeOptional]
  | some x => cases hx : f x <;> simp [judgeOptional, hx]

theorem qualifierOf_isSome {b : Byte} : (qualifierOf b).isSome = true ↔ b.toNat ≤ 2 := by revert b; decide
theorem onOffOf_isSome {b : Byte} : (onOffOf b).isSome = true ↔ b.toNat ≤ 1 := by revert b; decide
theorem triggerOf_isSome {b : Byte} : (triggerOf b).isSome = true ↔ b.toNat ≤ 7 := by revert b; decide
theorem captureSetOf_isSome {b : Byte} : (captureSetOf b).isSome = true ↔ 1 ≤ b.toNat ∧ b.toNat ≤ 15 := by revert b; decide
theorem axisOf_isSome {b : Byte} : (axisOf b).isSome = true ↔ b.toNat ≤ 3 := by revert b; decide
theorem releaseOf_isSome {x : Byte × Word16} : (releaseOf x).isSome = true ↔ x.1.toNat ≤ 3 := by
  rw [← axisOf_isSome]
  unfold releaseOf
  split <;> simp_all
theorem countOf_isSome {n : Option Nat} : (countOf n).isSome = true ↔ n ≠ some 0 := by
  rcases n with _ | _ | n <;> simp [countOf]

/-- R44: the pitch is absent exactly when the count is 1, and otherwise not 0 and less than M in size. -/
theorem pitchFits_iff {modulus : Nat} {n : Option Nat} {count : Firings} (hcount : countOf n = some count)
    (pitch : Option Int) :
    pitchFits modulus count pitch = true ↔
      (pitch = none ↔ n = some 1) ∧ ∀ p ∈ pitch, p ≠ 0 ∧ (modulus = 0 ∨ p.natAbs < modulus) := by
  have hone : count = .counted 1 ↔ n = some 1 := by
    obtain ⟨-, rfl⟩ := countOf_eq_some.mp hcount
    cases n <;> simp
  cases pitch with
  | none => simp [pitchFits, hone]
  | some p => simp [pitchFits, hone, and_assoc]

/-- R44, R174, R175: when an entry is valid. -/
theorem RawMark.judge_isSome (modulus : Nat) (armed : Bool) (w : RawMark) :
    (w.judge modulus armed).isSome = true ↔
      w.qualifier.toNat ≤ 2 ∧ w.count ≠ some 0 ∧ (modulus = 0 ∨ (0 ≤ w.position ∧ w.position < modulus))
      ∧ (w.pitch = none ↔ w.count = some 1) ∧ (∀ p ∈ w.pitch, p ≠ 0 ∧ (modulus = 0 ∨ p.natAbs < modulus))
      ∧ (∀ b ∈ w.pulse, b.toNat ≤ 7) ∧ (∀ b ∈ w.capture, 1 ≤ b.toNat ∧ b.toNat ≤ 15) ∧ (∀ x ∈ w.release, x.1.toNat ≤ 3)
      ∧ w.report.toNat ≤ 1 ∧ (w.pulse.isSome ∨ w.capture.isSome ∨ w.release.isSome ∨ w.report = 1) := by
  have read {α β : Type} {f : α → Option β} {o : Option α} {o' : Option β} (h : judgeOptional f o = some o') :
      o'.isSome = o.isSome := by
    have := congrArg Option.isSome (judgeOptional_eq_some.mp h)
    simpa using this.symm
  have report {x : Bool} (h : onOffOf w.report = some x) : x = true ↔ w.report = 1 := by
    rw [← onOffOf_iff.mp h]; cases x <;> decide
  have place : positionInRange modulus w.position = true ↔ modulus = 0 ∨ (0 ≤ w.position ∧ w.position < modulus) := by
    simp [positionInRange]
  constructor
  · intro h
    obtain ⟨m, hm⟩ := Option.isSome_iff_exists.mp h
    obtain ⟨q, count, pulse, capture, release, rep, h1, h2, h3, h4, h5, h6, ⟨hp, hpitch, hact⟩, -⟩ := RawMark.judge_eq_some.mp hm
    obtain ⟨hone, hsize⟩ := (pitchFits_iff h2 _).mp hpitch
    refine ⟨qualifierOf_isSome.mp (by simp [h1]), countOf_isSome.mp (by simp [h2]), place.mp hp, hone, hsize, ?_, ?_, ?_,
      onOffOf_isSome.mp (by simp [h6]), ?_⟩
    · exact fun b hb => triggerOf_isSome.mp (judgeOptional_isSome.mp (by simp [h3]) b hb)
    · exact fun b hb => captureSetOf_isSome.mp (judgeOptional_isSome.mp (by simp [h4]) b hb)
    · exact fun x hx => releaseOf_isSome.mp (judgeOptional_isSome.mp (by simp [h5]) x hx)
    · rwa [read h3, read h4, read h5, report h6] at hact
  · rintro ⟨hq, hcount, hp, hone, hsize, hpulse, hcapture, hrelease, hreport, hact⟩
    obtain ⟨q, h1⟩ := Option.isSome_iff_exists.mp (qualifierOf_isSome.mpr hq)
    obtain ⟨count, h2⟩ := Option.isSome_iff_exists.mp (countOf_isSome.mpr hcount)
    obtain ⟨pulse, h3⟩ := Option.isSome_iff_exists.mp
      (judgeOptional_isSome.mpr fun b hb => triggerOf_isSome.mpr (hpulse b hb))
    obtain ⟨capture, h4⟩ := Option.isSome_iff_exists.mp
      (judgeOptional_isSome.mpr fun b hb => captureSetOf_isSome.mpr (hcapture b hb))
    obtain ⟨release, h5⟩ := Option.isSome_iff_exists.mp
      (judgeOptional_isSome.mpr fun x hx => releaseOf_isSome.mpr (hrelease x hx))
    obtain ⟨rep, h6⟩ := Option.isSome_iff_exists.mp (onOffOf_isSome.mpr hreport)
    refine Option.isSome_iff_exists.mpr ⟨_, RawMark.judge_eq_some.mpr ⟨q, count, pulse, capture, release, rep, h1, h2, h3, h4, h5,
      h6, ⟨place.mpr hp, (pitchFits_iff h2 _).mpr ⟨hone, hsize⟩, ?_⟩, rfl⟩⟩
    rwa [read h3, read h4, read h5, report h6]

/-- R44: the mark that a valid entry gives. -/
theorem RawMark.judge_fields {modulus : Nat} {armed : Bool} {w : RawMark} {m : Mark} (h : w.judge modulus armed = some m) :
    m.tag = w.tag ∧ m.position = w.position ∧ m.qualifier.code = w.qualifier ∧ m.pitch = w.pitch ∧ m.armed = armed
    ∧ m.count = (match w.count with | none => .endless | some n => .counted n)
    ∧ m.pulse.map (fun n => byte8 n.val) = w.pulse ∧ m.capture.map (fun x => byte8 x.toNat) = w.capture
    ∧ m.release.map (fun x => (byte8 x.1.val, x.2)) = w.release ∧ onOff m.report = w.report := by
  obtain ⟨q, count, pulse, capture, release, rep, h1, h2, h3, h4, h5, h6, -, rfl⟩ := RawMark.judge_eq_some.mp h
  have written {α β : Type} {f : α → Option β} {g : β → α} (hfg : ∀ x y, f x = some y → g y = x) {o : Option α}
      {o' : Option β} (h : judgeOptional f o = some o') : o'.map g = o := by
    have h' := judgeOptional_eq_some.mp h
    cases o <;> cases o' <;> simp at h' ⊢
    exact hfg _ _ h'
  exact ⟨rfl, rfl, qualifierOf_iff.mp h1, rfl, rfl, (countOf_eq_some.mp h2).2, written (fun _ _ => triggerOf_iff.mp) h3,
    written (fun _ _ h => (captureSetOf_eq_some.mp h).2) h4, written (fun _ _ => releaseOf_eq_some.mp) h5, onOffOf_iff.mp h6⟩

/-- R46: the marks of a request are those of its entries. -/
theorem judgeMarks_eq_some {modulus : Nat} {armed : Bool} {ws : List RawMark} {ms : List Mark} :
    judgeMarks modulus armed ws = some ms ↔ ws.map (fun w => w.judge modulus armed) = ms.map some := by
  induction ws generalizing ms with
  | nil => cases ms <;> simp [judgeMarks]
  | cons w ws ih =>
    unfold judgeMarks
    cases hw : w.judge modulus armed with
    | none => cases ms <;> simp [hw]
    | some m =>
      cases hws : judgeMarks modulus armed ws with
      | none =>
        cases ms with
        | nil => simp
        | cons k ks => simpa using fun _ h => by simp [ih.mpr h] at hws
      | some ks =>
        cases ms with
        | nil => simp
        | cons k ks' => simp [← ih, hws, hw]

/-- R46: the marks of a request are given unless one entry is invalid. -/
theorem judgeMarks_eq_none {modulus : Nat} {armed : Bool} {ws : List RawMark} :
    judgeMarks modulus armed ws = none ↔ ∃ w ∈ ws, w.judge modulus armed = none := by
  induction ws with
  | nil => simp [judgeMarks]
  | cons w ws ih =>
    unfold judgeMarks
    rw [List.exists_mem_cons_iff, ← ih]
    cases w.judge modulus armed <;> cases judgeMarks modulus armed ws <;> simp

/-! ## ADD_MARKS (R46) -/

/-- R47: the free count falls by the marks that enter. -/
theorem State.freeCount_setMarkList {s : State} {a : AxisNo} {ms : List Mark} :
    (s.setMarkList a (insertMarks ms (s.markList a))).freeCount = s.freeCount - ms.length := by
  have h := s.sum_markList_setMarkList a (insertMarks ms (s.markList a))
  rw [insertMarks_length] at h
  simp only [State.freeCount]
  omega

section
variable {s : State} {r : Request}

/-- R46: an axis, an arm option or a number of marks out of range refuses the request. -/
theorem addMarks_badArgument (h : 3 < (arg8 r.args 0).toNat ∨ 1 < (arg8 r.args 1).toNat ∨ (arg8 r.args 2).toNat < 1
    ∨ 8 < (arg8 r.args 2).toNat) : addMarks r s = answer r .badArgument s.freeByte s := by
  unfold addMarks
  cases ha : axisOf (arg8 r.args 0) with
  | none => rfl
  | some a =>
    cases harm : onOffOf (arg8 r.args 1) with
    | none => rfl
    | some armed =>
      refine if_pos ?_
      rcases h with h | h | h
      · simp [axisOf_eq_none.mpr h] at ha
      · simp [onOffOf_eq_none.mpr h] at harm
      · exact h

/-- R46: with an axis, an arm option and a number of marks in range the entries are judged. -/
theorem addMarks_judged {a : AxisNo} {armed : Bool} (ha : (arg8 r.args 0).toNat = a.val)
    (harm : (arg8 r.args 1).toNat = armed.toNat) (hlow : 1 ≤ (arg8 r.args 2).toNat) (hhigh : (arg8 r.args 2).toNat ≤ 8) :
    addMarks r s =
      ((judgeMarks (s.axis a).config.modulus armed (readMarks (arg8 r.args 2).toNat (r.args.drop 3))).elim
        (answer r .badArgument s.freeByte s) fun ms =>
          if s.freeCount < (arg8 r.args 2).toNat then answer r .poolFull s.freeByte s
          else answer r .ok (s.setMarkList a (insertMarks ms (s.markList a))).freeByte
            (s.setMarkList a (insertMarks ms (s.markList a)))) := by
  simp only [addMarks, axisOf_eq_some.mpr ha, onOffOf_eq_some.mpr harm]
  rw [if_neg (by omega)]
  cases judgeMarks (s.axis a).config.modulus armed (readMarks (arg8 r.args 2).toNat (r.args.drop 3)) <;> rfl

end

/-! ## REMOVE_MARKS and RELEASE_MARKS -/

/-- R60: the remove selector takes in the arm states it names. -/
theorem Mark.removedBy_eq {m : Mark} {tag mask : Word16} {b : Byte} {selector : Option Bool} (h : selectorOf b = some selector) :
    m.removedBy tag mask selector = (m.matchesTag tag mask
      && ((b == 0) || (b == 1 && !m.armed) || (b == 2 && m.armed))) := by
  unfold Mark.removedBy
  refine congrArg _ ?_
  unfold selectorOf at h
  split at h
  · next hb => cases h; simp [hb]
  split at h
  · next hb => cases h; cases m.armed <;> simp [hb]
  split at h
  · next hb => cases h; cases m.armed <;> simp [hb]
  · cases h

/-- R57: a release leaves a mark ARMED when it matches, and as it was when it does not. -/
theorem armMatching_eq (tag mask : Word16) (l : List Mark) :
    armMatching tag mask l = l.map fun m => if m.matchesTag tag mask then { m with armed := true } else m := by
  refine List.map_congr_left fun m _ => ?_
  rcases m with ⟨_, _, _, _, _, armed, _, _, _, _⟩
  cases armed <;> simp [Mark.releasedBy, Mark.matchesTag]

/-- R60: a number that no remove selector has. -/
theorem selectorOf_eq_none {b : Byte} : selectorOf b = none ↔ 2 < b.toNat := by revert b; decide

/-! ## The statements -/

/-- Settles O20: by `insertMark_eq_filter`. -/
theorem marksEnterInOrder : Obligations.MarksEnterInOrder := by
  unfold Obligations.MarksEnterInOrder
  exact ⟨fun m l h => insertMark_eq_filter h, fun m ms l => ⟨rfl, rfl⟩⟩

/-- Settles O22: the checks in their order; the entries by `RawMark.judge_eq_some` and `readMark_written`. -/
theorem addMarksIsJudged : Obligations.AddMarksIsJudged := by
  unfold Obligations.AddMarksIsJudged
  refine ⟨?_, fun modulus armed ws => ⟨judgeMarks_eq_none, fun ms => judgeMarks_eq_some⟩,
    fun modulus armed w => ⟨w.judge_isSome modulus armed, fun m => RawMark.judge_fields⟩, ?_, fun n l => ⟨rfl, rfl⟩⟩
  · rintro s r n hex rfl
    refine ⟨fun h => exec_request hex (addMarks_badArgument h), fun a armed ha harm hlow hhigh => ⟨fun h => ?_, fun ms h => ?_⟩⟩
    · refine exec_request hex ((addMarks_judged ha harm hlow hhigh).trans ?_)
      rw [h]
      rfl
    · have hlen : ms.length = (arg8 r.args 2).toNat := by
        simpa using (judgeMarks_fits (readMarks_fits _ _) h).1
      refine ⟨hlen, exec_request hex ((addMarks_judged ha harm hlow hhigh).trans ?_)⟩
      rw [h, Option.elim_some, State.freeByte, State.freeByte, State.freeCount_setMarkList, hlen]
  · intro w rest hposition hpitch hcount
    rw [← readMark_written ⟨hposition, hcount, hpitch⟩ rest]
    congr 1
    rcases w with ⟨tag, position, qualifier, count, pitch, pulse, capture, release, report⟩
    cases count <;> cases pitch <;> cases pulse <;> cases capture <;> cases release <;>
      simp [RawMark.bytes, optionalBytes]

/-- Settles O23: each request by the axis and the fields it names. -/
theorem markRequestsAreTaken : Obligations.MarkRequestsAreTaken := by
  unfold Obligations.MarkRequestsAreTaken
  refine ⟨fun s r => ⟨fun hex h => exec_request hex ?_, fun hex h => exec_request hex ?_,
    fun hex h => exec_request hex ?_⟩, ?_⟩
  · unfold removeMarks
    rcases h with h | h
    · simp [axisOf_eq_none.mpr h]
    · cases axisOf (arg8 r.args 0) <;> simp [selectorOf_eq_none.mpr h]
  · simp [releaseMarks, axisOf_eq_none.mpr h]
  · simp [listMarks, axisOf_eq_none.mpr h]
  rintro s r a l tag mask ha rfl rfl rfl
  refine ⟨fun m => xor_and_beq_zero_iff .., fun hex h => ?_, fun hex => exec_request hex ?_,
    fun start wanted hex hstart hwanted => exec_request hex ?_⟩
  · obtain ⟨selector, hs⟩ : ∃ x, selectorOf (arg8 r.args 5) = some x :=
      Option.ne_none_iff_exists'.mp fun e => absurd (selectorOf_eq_none.mp e) (by omega)
    refine ⟨fun m => m.removedBy (arg16 r.args 1) (arg16 r.args 3) selector, fun m => Mark.removedBy_eq hs, exec_request hex ?_⟩
    simp only [removeMarks, axisOf_eq_some.mpr ha, hs]
  · simp only [releaseMarks, axisOf_eq_some.mpr ha, State.release, armMatching_eq]
    rfl
  · subst hstart hwanted
    simp only [listMarks, axisOf_eq_some.mpr ha]
    rfl

end Sys2Proof.Machine

/-!
PROOF. The layouts of chapter 10, read back as they are written, and the codes. They settle O21.
-/

namespace Sys2Proof.Machine

/-! ## The axis configuration (10.5.2) -/

/-- 10.1: a limit is read as it is written, when it is not 0. -/
theorem limitOf_written {o : Option Nat} (h : ∀ n ∈ o, 1 ≤ n) : limitOf (o.getD 0) = o := by
  cases o with
  | none => rfl
  | some n => exact if_neg (Nat.one_le_iff_ne_zero.mp (h n rfl))

/-- 10.5.2: a configuration with every field in range is read as it is written. -/
theorem axisConfigOf_written (b : Byte) {c : AxisConfig} (h : c.Fits) : axisConfigOf (b :: c.bytes) = some c := by
  obtain ⟨hdepth, hmod, htol, hoffset, htravel, htime, hgate⟩ := h
  have hoff : InInt32 c.homeOffset := by
    by_cases h0 : c.modulus = 0
    · exact hoffset.1 h0
    · have := hoffset.2 h0
      exact ⟨by omega, by omega⟩
  have travel : c.travelLimit.getD 0 ≤ 2147483647 := by
    cases ht : c.travelLimit with
    | none => simp
    | some l => exact (htravel l ht).2
  have time : c.timeLimit.getD 0 ≤ 65535 := by
    cases ht : c.timeLimit with
    | none => simp
    | some l => exact (htime l ht).2
  have e1 : arg8 (b :: c.bytes) 1 = c.mode.code := rfl
  have e2 : (arg8 (b :: c.bytes) 2).toNat = c.depth := (BitVec.toNat_ofNat ..).trans (Nat.mod_eq_of_lt (by omega))
  have e3 : arg8 (b :: c.bytes) 3 = onOff c.invert := rfl
  have e4 : (arg32 (b :: c.bytes) 4).toNat = c.modulus :=
    (congrArg BitVec.toNat (append_bytes32 _)).trans (toNat_ofNat32 (by omega))
  have e8 : arg8 (b :: c.bytes) 8 = onOff c.indexReports := rfl
  have e9 : arg8 (b :: c.bytes) 9 = onOff c.indexCheck := rfl
  have e10 : (arg8 (b :: c.bytes) 10).toNat = c.tolerance := (BitVec.toNat_ofNat ..).trans (Nat.mod_eq_of_lt (by omega))
  have e11 : arg8 (b :: c.bytes) 11 = onOff c.correction := rfl
  have e12 : argInt (b :: c.bytes) 12 = c.homeOffset := (congrArg BitVec.toInt (append_bytes32 _)).trans (toInt_ofInt32 hoff)
  have e16 : (arg32 (b :: c.bytes) 16).toNat = c.travelLimit.getD 0 :=
    (congrArg BitVec.toNat (append_bytes32 _)).trans (toNat_ofNat32 (by omega))
  have e20 : (arg16 (b :: c.bytes) 20).toNat = c.timeLimit.getD 0 :=
    (congrArg BitVec.toNat (append_bytes16 _)).trans (toNat_ofNat16 time)
  have e22 : (arg16 (b :: c.bytes) 22).toNat = c.gate :=
    (congrArg BitVec.toNat (append_bytes16 _)).trans (toNat_ofNat16 (by omega))
  have place : positionInRange c.modulus c.homeOffset = true := by
    by_cases h0 : c.modulus = 0
    · simp [positionInRange, h0]
    · simpa [positionInRange, h0] using hoffset.2 h0
  simp only [axisConfigOf, e1, e2, e3, e4, e8, e9, e10, e11, e12, e16, e20, e22, inputModeOf_iff.mpr rfl, onOffOf_iff.mpr rfl,
    limitOf_written fun l hl => (htravel l hl).1, limitOf_written fun l hl => (htime l hl).1]
  exact if_pos ⟨hdepth, hmod, place, travel, hgate⟩

/-! ## The filter entry (10.5.4) -/

/-- A tally unit is read from its number as a byte. -/
theorem unitOf_iff {b : Byte} {u : UnitNo} : unitOf b = some u ↔ byte8 u.val = b := by revert b u; decide

/-- 10.5.4: the tally unit of a filter entry is read as it is written. -/
theorem tallyOf_written (b : Byte) (f : FilterEntry) : tallyOf (b :: f.bytes) = some f.tally := by
  have e11 : arg8 (b :: f.bytes) 11 = arg8 (optionalBytes (f.tally.map fun u => [byte8 u.val])) 0 := rfl
  have e12 : arg8 (b :: f.bytes) 12 = arg8 (optionalBytes (f.tally.map fun u => [byte8 u.val])) 1 := rfl
  unfold tallyOf
  rw [e11, e12]
  cases f.tally with
  | none => rfl
  | some u =>
    have hu : unitOf (arg8 (optionalBytes ((some u).map fun u : UnitNo => [byte8 u.val])) 1) = some u := unitOf_iff.mpr rfl
    rw [hu]
    rfl

/-- R99: sets within their widths fit, when the flags value keeps to the flags mask. -/
theorem filterSetsFit_written (kinds : BitVec 6) (axes : BitVec 5) {mask value : BitVec 3} (h : value &&& ~~~mask = 0) :
    filterSetsFit (kinds.zeroExtend 8) (axes.zeroExtend 8) (mask.zeroExtend 8) (value.zeroExtend 8) = true := by
  have hk : (kinds.zeroExtend 8).toNat < 64 := by have := kinds.isLt; simp; omega
  have ha : (axes.zeroExtend 8).toNat < 32 := by have := axes.isLt; simp; omega
  have hm : (mask.zeroExtend 8).toNat < 8 := by have := mask.isLt; simp; omega
  have hv : (value.zeroExtend 8).toNat < 8 := by have := value.isLt; simp; omega
  have hvalue : (value.zeroExtend 8 : Byte) &&& ~~~(mask.zeroExtend 8) = 0 := by
    revert h; revert mask value; decide
  simp only [filterSetsFit, hk, ha, hm, hv, hvalue]
  rfl

/-- 10.5.4: a filter entry is read as it is written. -/
theorem filterEntryOf_written (b : Byte) {f : FilterEntry} (h : f.flagsValue &&& ~~~f.flagsMask = 0) :
    filterEntryOf (b :: f.bytes) = some f := by
  have back {n : Nat} (hn : n ≤ 8) (x : BitVec n) : (x.zeroExtend 8).truncate n = x := by
    simp [BitVec.setWidth_setWidth_of_le _ hn]
  have e1 : arg8 (b :: f.bytes) 1 = onOff f.enabled := rfl
  have e2 : arg8 (b :: f.bytes) 2 = f.kinds.zeroExtend 8 := rfl
  have e3 : arg8 (b :: f.bytes) 3 = f.axes.zeroExtend 8 := rfl
  have e4 : arg16 (b :: f.bytes) 4 = f.keyValue := append_bytes16 _
  have e6 : arg16 (b :: f.bytes) 6 = f.keyMask := append_bytes16 _
  have e8 : arg8 (b :: f.bytes) 8 = f.flagsMask.zeroExtend 8 := rfl
  have e9 : arg8 (b :: f.bytes) 9 = f.flagsValue.zeroExtend 8 := rfl
  have e10 : arg8 (b :: f.bytes) 10 = f.verdict.code := rfl
  simp only [filterEntryOf, e1, e2, e3, e4, e6, e8, e9, e10, tallyOf_written, onOffOf_iff.mpr rfl, verdictOf_iff.mpr rfl,
    filterSetsFit_written _ _ h, back (n := 6) (by omega), back (n := 5) (by omega), back (n := 3) (by omega)]
  rfl

/-- 10.1: the bytes of a 32-bit field, most significant first. -/
theorem bytes32_append4 (b3 b2 b1 b0 : Byte) : bytes32 (b3 ++ b2 ++ b1 ++ b0) = [b3, b2, b1, b0] := by
  have e0 : BitVec.extractLsb' 0 8 (b3 ++ b2 ++ b1 ++ b0) = b0 := BitVec.extractLsb'_append_eq_right
  have e1 : BitVec.extractLsb' 8 8 (b3 ++ b2 ++ b1 ++ b0) = b1 :=
    (BitVec.extractLsb'_append_eq_of_le (by omega)).trans BitVec.extractLsb'_append_eq_right
  have e2 : BitVec.extractLsb' 16 8 (b3 ++ b2 ++ b1 ++ b0) = b2 :=
    (BitVec.extractLsb'_append_eq_of_le (by omega)).trans
      ((BitVec.extractLsb'_append_eq_of_le (by omega)).trans BitVec.extractLsb'_append_eq_right)
  have e3 : BitVec.extractLsb' 24 8 (b3 ++ b2 ++ b1 ++ b0) = b3 :=
    (BitVec.extractLsb'_append_eq_of_le (by omega)).trans
      ((BitVec.extractLsb'_append_eq_of_le (by omega)).trans BitVec.extractLsb'_append_eq_left)
  rw [bytes32, e3, e2, e1, e0]

/-! ## Records (10.7) -/

/-- 10.4: the flags of a FIRE record as a byte. -/
theorem fireFlags_byte (skipped final busy : Bool) :
    (fireFlags skipped final busy).zeroExtend 8 =
      byte8 ((if skipped then 1 else 0) + (if final then 2 else 0) + (if busy then 4 else 0)) := by
  revert skipped final busy; decide

/-- 10.1: ENDLESS is shown as 65 535 firings left. -/
theorem nat16_65535 : nat16 65535 = [0xFF, 0xFF] := by decide

/-- 10.7: a FIRE record. -/
theorem fireRecord_bytes (stamp : Word32) (r : FireRecord) : Record.bytes { stamp := stamp, body := .fire r } =
    1 :: bytes32 stamp ++ (byte8 r.axis.val :: bytes16 r.tag ++ int32 r.position)
      ++ [if r.direction = .up then 0 else 1,
          byte8 ((if r.skipped then 1 else 0) + (if r.final then 2 else 0) + (if r.outputBusy then 4 else 0))]
      ++ (match r.left with | .counted n => nat16 n | .endless => [0xFF, 0xFF])
      ++ (match r.released with | none => [0] | some n => [1, byte8 n])
      ++ (match r.snapshot with
          | none => [0]
          | some l => byte8 l.length :: l.flatMap fun e => byte8 e.axis.val :: e.status.code :: int32 e.position) := by
  rcases r with ⟨a, tag, p, direction, skipped, final, busy, left, released, snapshot⟩
  cases direction <;> cases left <;> cases released <;> cases snapshot <;>
    simp [Record.bytes, RecordBody.kindCode, RecordBody.fieldBytes, Direction.code, Firings.leftBytes, optionalBytes,
      snapshotBytes, fireFlags_byte, nat16_65535] <;> rfl

/-- 10.7: a CAPTURE record. -/
theorem captureRecord_bytes (stamp : Word32) (line : CaptureNo) (edge : Edge) (l : List SnapEntry) (released : Option Nat) :
    Record.bytes { stamp := stamp, body := .capture line edge l released } =
      2 :: bytes32 stamp ++ [byte8 line.val, if edge = .rising then 1 else 2]
        ++ (match released with | none => [0] | some n => [1, byte8 n])
        ++ byte8 l.length :: l.flatMap fun e => byte8 e.axis.val :: e.status.code :: int32 e.position := by
  cases edge <;> cases released <;>
    simp [Record.bytes, RecordBody.kindCode, RecordBody.fieldBytes, Edge.code, optionalBytes, snapshotBytes] <;> rfl

/-- 10.7: an INDEX record. -/
theorem indexRecord_bytes (stamp : Word32) (a : AxisNo) (p : Int) (drift : Option Int) (corrected : Bool) :
    Record.bytes { stamp := stamp, body := .index a p drift corrected } =
      3 :: bytes32 stamp ++ (byte8 a.val :: int32 p) ++ (match drift with | none => [0] | some x => 1 :: int32 x)
        ++ [if corrected then 1 else 0] := by
  cases drift <;> simp [Record.bytes, RecordBody.kindCode, RecordBody.fieldBytes, optionalBytes, onOff]

/-! ## The mark entry as listed (10.6) -/

/-- 10.6: the bytes of a mark, field by field. -/
theorem Mark.bytes_eq (m : Mark) : m.bytes =
    bytes16 m.tag ++ int32 m.position ++ [m.qualifier.code]
      ++ (match m.count with | .endless => [0] | .counted n => 1 :: nat16 n)
      ++ (match (if m.count = .counted 1 then none else m.pitch) with | none => [0] | some p => 1 :: int32 p)
      ++ (match m.pulse with | none => [0] | some n => [1, byte8 n.val])
      ++ (match m.capture with | none => [0] | some x => [1, byte8 x.toNat])
      ++ (match m.release with | none => [0] | some (a, tag) => 1 :: byte8 a.val :: bytes16 tag) ++ [onOff m.report] := by
  have hset (x : AxisSet) : BitVec.zeroExtend 8 x = byte8 x.toNat := by revert x; decide
  rcases m with ⟨tag, p, qualifier, count, pitch, armed, pulse, capture, release, report⟩
  have hpitch : optionalBytes (Option.map int32 (if count = .counted 1 then none else pitch)) =
      (match (if count = .counted 1 then none else pitch) with | none => [0] | some p => 1 :: int32 p) := by
    cases (if count = .counted 1 then none else pitch) <;> rfl
  simp only [Mark.bytes, Mark.shownPitch, hpitch, hset]
  cases count <;> cases pulse <;> cases capture <;> cases release <;> rfl

/-! ## The statement -/

/-- Settles O21: the round trips by their lemmas, the records field by field, the codes value by value. -/
theorem layoutsAreReadBackAsWritten : Obligations.LayoutsAreReadBackAsWritten := by
  unfold Obligations.LayoutsAreReadBackAsWritten
  refine ⟨fun b c h => axisConfigOf_written b h, fun b f h => filterEntryOf_written b h, fun modulus m rest hmod h => ?_,
    fireRecord_bytes, captureRecord_bytes, indexRecord_bytes, fun stamp a p d => ?_, fun stamp a k p => ?_,
    fun stamp a old new cause => ?_, fun stamp u reason n => ?_, fun stamp l => by simp [Record.bytes, RecordBody.kindCode,
      RecordBody.fieldBytes], fun x => by cases x <;> rfl, fun x => by cases x <;> rfl, fun x => by cases x <;> rfl,
    fun x => by cases x <;> rfl, fun x => by cases x <;> rfl, fun x => by cases x <;> rfl, fun x => by cases x <;> rfl,
    fun b x => ⟨by cases x <;> rfl, inputModeOf_iff⟩, fun b x => ⟨by cases x <;> rfl, qualifierOf_iff⟩,
    fun b x => ⟨by cases x <;> rfl, verdictOf_iff⟩, fun b x => ⟨by cases x <;> rfl, tallyModeOf_iff⟩,
    fun b x => ⟨rfl, onOffOf_iff⟩, fun b x => ?_, fun b x => ?_, fun b x => ?_, fun b x => ?_, fun b x => ?_, fun c => ?_,
    Mark.bytes_eq, fun m p => ?_, fun n => ⟨rfl, rfl, rfl⟩, fun x => rfl, fun b3 b2 b1 b0 => ⟨bytes16_append .., bytes32_append4 ..⟩,
    fun l i => ⟨rfl, rfl, rfl, rfl⟩, fun e => rfl⟩
  · rw [Mark.bytes_raw, readMark_written (Mark.raw_fits hmod h)]
    exact ⟨rfl, Mark.judge_raw h⟩
  · cases d <;> simp [Record.bytes, RecordBody.kindCode, RecordBody.fieldBytes, Direction.code]
  · cases k <;> simp [Record.bytes, RecordBody.kindCode, RecordBody.fieldBytes, FaultKind.code]
  · cases cause <;> simp [Record.bytes, RecordBody.kindCode, RecordBody.fieldBytes, StateCause.code]
  · cases reason <;> simp [Record.bytes, RecordBody.kindCode, RecordBody.fieldBytes, TallyReason.code]
  · cases x <;> revert b <;> decide
  · cases x <;> revert b <;> decide
  · cases x <;> revert b <;> decide
  · rcases x with _ | _ | _ <;> revert b <;> decide
  · revert b x; decide
  · cases ht : c.travelLimit <;> cases hl : c.timeLimit <;> simp [AxisConfig.bytes, ht, hl]
  · cases m <;> revert p <;> decide

end Sys2Proof.Machine

/-!
PROOF. The evaluation of an arrival and the firing of a mark (3.4). They settle O24 and O25.
-/

namespace Sys2Proof.Machine

/-! ## The marks at a position -/

/-- A mark that stands at a place at the position parts the list; without it the two parts are left. -/
theorem marksAt_split {p : Int} {l : List Mark} {n : Nat} {m : Mark} (h : (marksAt p l)[n]? = some m) :
    ∃ l1 l2, l = l1 ++ m :: l2 ∧ (marksAt p l1).length = n ∧ m.position = p ∧ removeNthAt p n l = l1 ++ l2 := by
  induction l generalizing n with
  | nil => simp [marksAt] at h
  | cons x xs ih =>
    by_cases hx : x.position = p
    · cases n with
      | zero =>
        obtain rfl : x = m := by simpa [marksAt, hx] using h
        exact ⟨[], xs, rfl, rfl, hx, by simp [removeNthAt, hx]⟩
      | succ n =>
        obtain ⟨l1, l2, rfl, hlen, hm, hrem⟩ := ih (n := n) (by simpa [marksAt, hx] using h)
        exact ⟨x :: l1, l2, rfl, by simp [marksAt, hx] at hlen ⊢; exact hlen, hm, by simp [removeNthAt, hx, hrem]⟩
    · obtain ⟨l1, l2, rfl, hlen, hm, hrem⟩ := ih (n := n) (by simpa [marksAt, hx] using h)
      exact ⟨x :: l1, l2, rfl, by simp [marksAt, hx] at hlen ⊢; exact hlen, hm, by cases n <;> simp [removeNthAt, hx, hrem]⟩

theorem marksAt_append (p : Int) (l1 l2 : List Mark) : marksAt p (l1 ++ l2) = marksAt p l1 ++ marksAt p l2 :=
  List.filter_append ..

/-- A list at whose position no mark stands. -/
theorem marksAt_eq_nil {p : Int} {l : List Mark} (h : ∀ x ∈ l, x.position ≠ p) : marksAt p l = [] :=
  List.filter_eq_nil_iff.mpr fun x hx => by simpa using h x hx

/-- A mark at another position stays in front. -/
theorem removeNthAt_cons_ne {p : Int} {x : Mark} (h : x.position ≠ p) (n : Nat) (l : List Mark) :
    removeNthAt p n (x :: l) = x :: removeNthAt p n l := by
  cases n <;> simp [removeNthAt, h]

/-- The mark at a known place leaves the list. -/
theorem removeNthAt_append_cons (l1 l2 : List Mark) (m : Mark) :
    removeNthAt m.position (l1.countP fun x => x.position == m.position) (l1 ++ m :: l2) = l1 ++ l2 := by
  induction l1 with
  | nil => simp [removeNthAt]
  | cons x xs ih =>
    by_cases hx : x.position = m.position
    · simp [removeNthAt, hx, ih]
    · rw [List.countP_cons_of_neg (by simpa using hx), List.cons_append, removeNthAt_cons_ne hx, ih, List.cons_append]

/-- R43: a mark that enters an ordered list parts it before the marks at a greater position. -/
theorem insertMark_sorted_split {m : Mark} {l : List Mark} (h : l.Pairwise fun x y => x.position ≤ y.position) :
    ∃ l1 l2, l = l1 ++ l2 ∧ insertMark m l = l1 ++ m :: l2 ∧ ∀ x ∈ l2, m.position < x.position := by
  induction l with
  | nil => exact ⟨[], [], rfl, rfl, by simp⟩
  | cons x xs ih =>
    obtain ⟨hx, hxs⟩ := List.pairwise_cons.mp h
    by_cases hle : x.position ≤ m.position
    · obtain ⟨l1, l2, rfl, hins, hlt⟩ := ih hxs
      exact ⟨x :: l1, l2, rfl, by simp [insertMark, hle, hins], hlt⟩
    · refine ⟨[], x :: xs, rfl, by simp [insertMark, hle], fun y hy => ?_⟩
      rcases List.mem_cons.mp hy with rfl | hy
      · omega
      · have := hx y hy
        omega

/-- R43: a mark that enters an ordered list comes behind the marks at its position. -/
theorem marksAt_insertMark {p : Int} {m : Mark} {l : List Mark} (h : l.Pairwise fun x y => x.position ≤ y.position) :
    marksAt p (insertMark m l) = marksAt p l ++ if m.position = p then [m] else [] := by
  obtain ⟨l1, l2, rfl, hins, hlt⟩ := insertMark_sorted_split (m := m) h
  rw [hins, marksAt_append, marksAt_append]
  by_cases hm : m.position = p
  · have hnone : marksAt p l2 = [] := marksAt_eq_nil fun x hx e => by have := hlt x hx; omega
    rw [hnone, show m :: l2 = [m] ++ l2 from rfl, marksAt_append, hnone]
    simp [marksAt, hm]
  · simp [marksAt, hm]

/-- R43: the marks of a kind keep their order when another mark enters an ordered list. -/
theorem filter_insertMark {q : Mark → Bool} {m : Mark} (hq : q m = true) {l : List Mark}
    (h : l.Pairwise fun x y => x.position ≤ y.position) : (insertMark m l).filter q = insertMark m (l.filter q) := by
  rw [insertMark_eq_filter h, insertMark_eq_filter (h.filter q)]
  simp only [List.filter_append, List.filter_cons_of_pos hq, List.filter_filter, Bool.and_comm]

/-! ## One mark fires (R50 to R55) -/

/-- R57: a tag is matched exactly when every bit is selected. -/
theorem Mark.matchesTag_exact (m : Mark) (tag : Word16) : m.matchesTag tag exactMask = (m.tag == tag) := by
  have hones : exactMask = BitVec.allOnes 16 := by decide
  rw [Mark.matchesTag, hones, BitVec.and_allOnes, Bool.eq_iff_iff, beq_iff_eq, beq_iff_eq]
  exact BitVec.xor_eq_zero_iff

/-- R53: a release action arms the HELD marks of its tag. -/
theorem armMatching_exact (tag : Word16) (l : List Mark) :
    armMatching tag exactMask l = l.map fun k => if !k.armed && k.tag == tag then { k with armed := true } else k := by
  simp only [armMatching, Mark.releasedBy, Mark.matchesTag_exact]

theorem releasedCount_exact (tag : Word16) (l : List Mark) :
    releasedCount tag exactMask l = l.countP fun k => !k.armed && k.tag == tag := by
  simp only [releasedCount, Mark.releasedBy, Mark.matchesTag_exact]

/-- R54: the last firing is the one at count 1. -/
theorem Mark.lastFiring_eq (m : Mark) : m.lastFiring = (m.count == .counted 1 || m.count == .counted 0) := by
  unfold Mark.lastFiring
  rcases m.count with n | _
  · rcases n with _ | _ | n <;> simp
  · rfl

/-- R52, R79: a pulse leaves every axis as the snapshot reads it. -/
theorem State.pulseAction_snapshot (s : State) (pulse : Option TriggerNo) (set : AxisSet) (arriving : Option (AxisNo × Int)) :
    (s.pulseAction pulse).1.snapshot set arriving = s.snapshot set arriving := by
  cases pulse <;> rfl

/-- R52, R79: one reading, by the state of the axis. -/
theorem State.snapEntry_eq (s : State) (arriving : Option (AxisNo × Int)) (b : AxisNo) :
    s.snapEntry arriving b =
      { axis := b, status := (s.axis b).state.snapStatus
        position := if (s.axis b).state.snapStatus = .invalid then 0
          else arriving.elim (s.axis b).position fun x => if x.1 = b then x.2 else (s.axis b).position } := by
  rcases arriving with _ | ⟨a, p⟩ <;> rfl

/-- Settles O25: the parts of `State.fireMark` in their order. -/
theorem firingMarksMakeTheirClaims : Obligations.FiringMarksMakeTheirClaims := by
  unfold Obligations.FiringMarksMakeTheirClaims
  refine ⟨fun s a arr n m => ?_, fun s set arriving => rfl, fun s a b p => ?_, fun s a m l1 l2 hl => ?_⟩
  · refine ⟨(s.pulseAction m.pulse).1, ((s.pulseAction m.pulse).1.releaseAction m.release).1, (s.pulseAction m.pulse).2,
      ((s.pulseAction m.pulse).1.releaseAction m.release).2, fun h => ?_, fun line h => ?_, fun h => ?_, fun target tag h => ?_, ?_⟩
    · rw [h]; exact ⟨rfl, rfl⟩
    · rw [h]; exact ⟨rfl, rfl⟩
    · rw [h]; exact ⟨rfl, rfl⟩
    · simp only [h, State.releaseAction, State.release, State.pulseAction_markList, armMatching_exact, releasedCount_exact,
        and_self]
    · simp only [State.fireMark, State.fireRecord, Mark.lastFiring_eq, State.pulseAction_snapshot]
  · rw [State.snapEntry_eq]
    cases hst : (s.axis b).state <;> simp [AxisState.snapStatus, eq_comm]
  · rw [State.reposition, hl, removeNthAt_append_cons] <;> rfl

end Sys2Proof.Machine

/-!
PROOF. An arrival fires its candidates in list order (R49 to R55). They settle O24.
-/

namespace Sys2Proof.Machine

/-! ## Candidates and their places -/

/-- R49: a candidate stands at the position, is ARMED and admits the direction. -/
theorem Mark.candidateOf_eq (m : Mark) (arr : Arrival) :
    m.candidateOf arr = (m.position == arr.position && (m.armed && m.qualifier.admits arr.direction)) := by
  unfold Mark.candidateOf
  rw [Bool.and_assoc]
  refine congrArg _ (congrArg _ ?_)
  cases m.qualifier <;> cases arr.direction <;> rfl

/-- R49: the candidates among the marks at the position, each with the number of marks that have been left in place before
it. -/
def firings (arr : Arrival) : List Mark → Nat → List (Nat × Mark)
  | [], _ => []
  | m :: ms, n => if m.candidateOf arr then (n, m) :: firings arr ms n else firings arr ms (n + 1)

/-- R49: the candidates of a whole list, by their index in it. -/
theorem firings_marksAt (arr : Arrival) (l : List Mark) (n : Nat) :
    firings arr (marksAt arr.position l) n =
      (List.range l.length).filterMap (fun i => (l[i]?.filter fun m => m.candidateOf arr).map fun m =>
        (n + (l.take i).countP fun x => x.position == arr.position && !x.candidateOf arr, m)) := by
  induction l generalizing n with
  | nil => rfl
  | cons x xs ih =>
    rw [List.length_cons, List.range_succ_eq_map, List.filterMap_cons, List.filterMap_map]
    by_cases hx : x.position = arr.position
    · have hat : marksAt arr.position (x :: xs) = x :: marksAt arr.position xs := by simp [marksAt, hx]
      rw [hat, firings]
      cases hc : x.candidateOf arr
      · simp [ih, hx, hc, Option.filter, Nat.add_assoc, Nat.add_comm 1]
      · simp [ih, hx, hc, Option.filter]
    · have hat : marksAt arr.position (x :: xs) = marksAt arr.position xs := by simp [marksAt, hx]
      have hc : x.candidateOf arr = false := by simp [Mark.candidateOf_eq, hx]
      rw [hat, ih]
      simp [hx, hc, Option.filter]

/-! ## The list while the candidates fire -/

/-- R53, R57: a mark as it was, or armed by a release. -/
def Mark.MayArm (m m' : Mark) : Prop := m' = m ∨ m' = { m with armed := true }

theorem Mark.MayArm.position {m m' : Mark} (h : m.MayArm m') : m'.position = m.position := by
  rcases h with rfl | rfl <;> rfl

theorem Mark.MayArm.qualifier {m m' : Mark} (h : m.MayArm m') : m'.qualifier = m.qualifier := by
  rcases h with rfl | rfl <;> rfl

theorem Mark.MayArm.of_armed {m m' : Mark} (h : m.MayArm m') (ha : m.armed = true) : m' = m := by
  rcases h with rfl | rfl
  · rfl
  · cases m; simp_all

theorem Mark.MayArm.trans {m m' m'' : Mark} (h : m.MayArm m') (h' : m'.MayArm m'') : m.MayArm m'' := by
  rcases h with rfl | rfl <;> rcases h' with rfl | rfl
  · exact .inl rfl
  · exact .inr rfl
  · exact .inr rfl
  · exact .inr rfl

/-- R50: the list after a mark has fired: its release may have armed marks, it has left its place, and it may have entered
again. -/
theorem State.fireMark_markList (s : State) (a : AxisNo) (arr : Arrival) (n : Nat) (m : Mark) :
    ∃ g : Mark → Mark, (∀ x : Mark, x.MayArm (g x)) ∧
      (s.fireMark a arr n m).markList a =
        (m.afterFiring (s.axis a).config.modulus).elim (removeNthAt arr.position n ((s.markList a).map g))
          fun m' => insertMark m' (removeNthAt arr.position n ((s.markList a).map g)) := by
  obtain ⟨g, hg, hlist⟩ : ∃ g : Mark → Mark, (∀ x : Mark, x.MayArm (g x)) ∧
      ((s.pulseAction m.pulse).1.releaseAction m.release).1.markList a = (s.markList a).map g := by
    rcases (s.pulseAction m.pulse).1.releaseAction_markList m.release a with e | ⟨tag, e⟩
    · exact ⟨id, fun _ => .inl rfl, by rw [e, State.pulseAction_markList, List.map_id]⟩
    · refine ⟨_, fun x => ?_, by rw [e, State.pulseAction_markList, armMatching]⟩
      split
      · exact .inr rfl
      · exact .inl rfl
  refine ⟨g, hg, ?_⟩
  have haxis : ∀ busy count shot, (((s.pulseAction m.pulse).1.releaseAction m.release).1.fireRecord a arr m busy count shot).axis a
      = s.axis a := by
    intro busy count shot
    unfold State.fireRecord
    split <;> cases m.pulse <;> cases m.release <;> rfl
  simp only [State.fireMark, State.reposition, State.markList_setMarkList, State.fireRecord_markList, hlist, haxis]
  cases m.afterFiring (s.axis a).config.modulus <;> rfl

/-- R49: the marks still to be considered stand at the position behind those that have been left in place, in their order;
a release may have armed them. Marks that have entered again stand behind them (R43). -/
def Awaits (a : AxisNo) (p : Int) (s : State) (todo : List Mark) (n : Nat) : Prop :=
  ((s.markList a).Pairwise fun x y => x.position ≤ y.position) ∧
    ∃ kept rest entered, marksAt p (s.markList a) = kept ++ (rest ++ entered) ∧ kept.length = n ∧
      List.Forall₂ Mark.MayArm todo rest

/-- A list in which marks may have been armed. -/
theorem marksAt_map_mayArm {g : Mark → Mark} (hg : ∀ x : Mark, x.MayArm (g x)) (p : Int) (l : List Mark) :
    marksAt p (l.map g) = (marksAt p l).map g := by
  simp only [marksAt, List.filter_map]
  exact congrArg _ (List.filter_congr fun x _ => by simp [(hg x).position])

/-- The marks at the position after one of them has left. -/
theorem marksAt_of_left {p : Int} {l1 l2 kept rest : List Mark} {m : Mark}
    (hat : marksAt p (l1 ++ m :: l2) = kept ++ m :: rest) (hm : m.position = p)
    (hlen : (marksAt p l1).length = kept.length) : marksAt p (l1 ++ l2) = kept ++ rest := by
  have hcons : marksAt p (m :: l2) = m :: marksAt p l2 := by simp [marksAt, hm]
  rw [marksAt_append, hcons] at hat
  obtain ⟨hkept, hrest⟩ := List.append_inj hat hlen
  rw [marksAt_append, hkept, (List.cons.inj hrest).2]

/-- R50, R55: when the first mark that is considered fires, the marks behind it wait as before. -/
theorem Awaits.fireMark {a : AxisNo} {arr : Arrival} {s : State} {m : Mark} {ms : List Mark} {n : Nat}
    (h : Awaits a arr.position s (m :: ms) n) : Awaits a arr.position (s.fireMark a arr n m) ms n := by
  obtain ⟨hsorted, kept, rest, entered, hat, hlen, hrest⟩ := h
  obtain ⟨m', rest, rfl⟩ : ∃ m' r, rest = m' :: r := by cases hrest; exact ⟨_, _, rfl⟩
  obtain ⟨-, hrest⟩ := List.forall₂_cons.mp hrest
  obtain ⟨g, hg, hlist⟩ := s.fireMark_markList a arr n m
  have hat' : marksAt arr.position ((s.markList a).map g) =
      kept.map g ++ g m' :: (rest.map g ++ entered.map g) := by
    rw [marksAt_map_mayArm hg, hat]; simp
  obtain ⟨l1, l2, hl, hl1, hposition, hrem⟩ := marksAt_split (m := g m') (n := n) (by rw [hat']; simp [← hlen])
  have hmapped : ((s.markList a).map g).Pairwise fun x y => x.position ≤ y.position :=
    List.pairwise_map.mpr (hsorted.imp fun h => by rw [(hg _).position, (hg _).position]; exact h)
  have hgone : marksAt arr.position (l1 ++ l2) = kept.map g ++ (rest.map g ++ entered.map g) :=
    marksAt_of_left (hl ▸ hat') hposition (by simp [hl1, hlen])
  have hleft : (l1 ++ l2).Pairwise fun x y => x.position ≤ y.position :=
    hrem ▸ hmapped.sublist (removeNthAt_sublist ..)
  have harmed : List.Forall₂ Mark.MayArm ms (rest.map g) :=
    List.forall₂_map_right_iff.mpr (hrest.imp fun _ _ h => h.trans (hg _))
  rw [hrem] at hlist
  cases hm : m.afterFiring (s.axis a).config.modulus with
  | none =>
    rw [hm, Option.elim_none] at hlist
    exact ⟨hlist ▸ hleft, kept.map g, rest.map g, entered.map g, hlist ▸ hgone, by simpa using hlen, harmed⟩
  | some k =>
    rw [hm, Option.elim_some] at hlist
    refine ⟨hlist ▸ insertMark_sorted hleft k, kept.map g, rest.map g, entered.map g ++ if k.position = arr.position then [k] else [],
      ?_, by simpa using hlen, harmed⟩
    rw [hlist, marksAt_insertMark hleft, hgone]
    simp

/-- R49: the candidates fire one after another; the marks that are none keep their places. -/
theorem considerMarks_eq {a : AxisNo} {arr : Arrival} {todo : List Mark} {s : State} {n : Nat}
    (h : Awaits a arr.position s todo n) (hpos : ∀ m ∈ todo, m.position = arr.position) :
    considerMarks a arr (todo.map fun m => m.armed) n s =
      (firings arr todo n).foldl (fun t f => t.fireMark a arr f.1 f.2) s := by
  induction todo generalizing s n with
  | nil => rfl
  | cons m ms ih =>
    have hpos' : ∀ k ∈ ms, k.position = arr.position := fun k hk => hpos k (List.mem_cons_of_mem _ hk)
    obtain ⟨hsorted, kept, rest, entered, hat, hlen, hrest⟩ := id h
    obtain ⟨m', rest, rfl⟩ : ∃ m' r, rest = m' :: r := by cases hrest; exact ⟨_, _, rfl⟩
    obtain ⟨hm', hrest⟩ := List.forall₂_cons.mp hrest
    have hplace : (marksAt arr.position (s.markList a))[n]? = some m' := by rw [hat]; simp [← hlen]
    have hc : m.candidateOf arr = true ↔ m.armed = true ∧ m'.qualifier.admits arr.direction = true := by
      rw [Mark.candidateOf_eq, hm'.qualifier, hpos m List.mem_cons_self]; simp
    simp only [List.map_cons, considerMarks, hplace, firings]
    by_cases hcand : m.candidateOf arr = true
    · rw [if_pos (hc.mp hcand), if_pos hcand, List.foldl_cons, hm'.of_armed (hc.mp hcand).1]
      exact ih h.fireMark hpos'
    · rw [if_neg (fun e => hcand (hc.mpr e)), if_neg hcand]
      refine ih ⟨hsorted, kept ++ [m'], rest, entered, by rw [hat]; simp, by simp [hlen], hrest⟩ hpos'

/-! ## Arrivals -/

section
variable {s : State} {a : AxisNo} {arr : Arrival}

/-- R48: an arrival that the axis holds is taken. -/
theorem exec_arrivalEvaluation (hrun : Running s) (harr : (s.axis a).arrival = some arr) :
    exec (.arrivalEvaluation a) s = .next
      (considerMarks a arr ((marksAt arr.position (s.markList a)).map fun m => m.armed) 0
        (s.setAxis a { s.axis a with arrival := none })) := by
  refine (whenRunning_running hrun).trans (congrArg _ ?_)
  simp only [takeArrival, harr]

/-- R49: an arrival fires the candidates of the list as it stood. -/
theorem exec_arrivalEvaluation_firings (hrun : Running s) (harr : (s.axis a).arrival = some arr)
    (hsorted : (s.markList a).Pairwise fun x y => x.position ≤ y.position) :
    exec (.arrivalEvaluation a) s = .next
      ((firings arr (marksAt arr.position (s.markList a)) 0).foldl (fun t f => t.fireMark a arr f.1 f.2)
        (s.setAxis a { s.axis a with arrival := none })) := by
  rw [exec_arrivalEvaluation hrun harr]
  refine congrArg _ (considerMarks_eq ⟨hsorted, [], marksAt arr.position (s.markList a), [], ?_, rfl, ?_⟩ fun m hm => ?_)
  · simp
  · exact List.forall₂_same.mpr fun m _ => .inl rfl
  · simpa using (List.mem_filter.mp hm).2

/-- R49: when no mark at the position is a candidate, the arrival fires nothing. -/
theorem considerMarks_none {l : List Mark} (h : ∀ m ∈ l, m.armed = true → m.qualifier.admits arr.direction = false)
    {kept : List Mark} (hat : marksAt arr.position (s.markList a) = kept ++ l) :
    considerMarks a arr (l.map fun m => m.armed) kept.length s = s := by
  induction l generalizing kept with
  | nil => rfl
  | cons m ms ih =>
    have hplace : (marksAt arr.position (s.markList a))[kept.length]? = some m := by rw [hat]; simp
    have hno : ¬(m.armed = true ∧ m.qualifier.admits arr.direction = true) := fun ⟨h1, h2⟩ => by
      rw [h m List.mem_cons_self h1] at h2; cases h2
    simp only [List.map_cons, considerMarks, hplace, if_neg hno]
    simpa using ih (kept := kept ++ [m]) (fun k hk => h k (List.mem_cons_of_mem _ hk)) (by simp [hat])

/-- A mark that is considered and is no candidate changes nothing. -/
theorem considerMarks_last (n : Nat) : considerMarks a arr [false] n s = s := by
  unfold considerMarks
  split
  · rfl
  · exact if_neg (by simp)

/-- R49: the first candidate fires. -/
theorem considerMarks_first {m : Mark} {rest : List Mark} {flags : List Bool}
    (hat : marksAt arr.position (s.markList a) = m :: rest) (hq : m.qualifier.admits arr.direction = true) :
    considerMarks a arr (true :: flags) 0 s = considerMarks a arr flags 0 (s.fireMark a arr 0 m) := by
  simp [considerMarks, hat, hq]

/-! ## Marks that only report (R54) -/

/-- R54: the FIRE record of a mark without claims. -/
def State.reportFiring (s : State) (a : AxisNo) (arr : Arrival) (m : Mark) : State :=
  s.formRecord (.fire
    { axis := a, tag := m.tag, position := arr.position, direction := arr.direction, skipped := arr.inferred,
      final := m.lastFiring, outputBusy := false, left := m.leftAfter, released := none, snapshot := none })

/-- R50, R54: a mark without claims forms its record and moves. -/
theorem State.fireMark_onlyReports {m : Mark} (h : m.onlyReports) (n : Nat) :
    s.fireMark a arr n m = (s.reportFiring a arr m).reposition a arr.position n m := by
  obtain ⟨hreport, hpulse, hcapture, hrelease⟩ := h
  simp [State.fireMark, State.fireRecord, State.reportFiring, hreport, hpulse, hcapture, hrelease, State.pulseAction,
    State.releaseAction]

/-- R55: a fired mark at a known place leaves the list and may enter again. -/
theorem State.reposition_split {m : Mark} {l1 l2 : List Mark} {n : Nat} (hl : s.markList a = l1 ++ m :: l2)
    (hm : m.position = arr.position) (hn : (marksAt arr.position l1).length = n) :
    s.reposition a arr.position n m = s.setMarkList a
      ((m.afterFiring (s.axis a).config.modulus).elim (l1 ++ l2) fun k => insertMark k (l1 ++ l2)) := by
  have hcount : l1.countP (fun x => x.position == m.position) = n := by
    rw [← hn, marksAt, List.countP_eq_length_filter, hm]
  rw [State.reposition, hl, ← hm, ← hcount, removeNthAt_append_cons]
  cases m.afterFiring (s.axis a).config.modulus <;> rfl

/-- Records formed before or after a list is replaced. -/
theorem foldl_reportFiring_setMarkList (ms l : List Mark) :
    ms.foldl (fun t m => t.reportFiring a arr m) (s.setMarkList a l) =
      (ms.foldl (fun t m => t.reportFiring a arr m) s).setMarkList a l := by
  induction ms generalizing s with
  | nil => rfl
  | cons m ms ih => exact ih (s := s.reportFiring a arr m)

/-- R43, R50, R54, R55: candidates that only report form their records in order; those that do not leave for good enter again
in that order, and the other marks keep their places. -/
theorem foldl_firings_onlyReports {todo kept : List Mark}
    (hsorted : (s.markList a).Pairwise fun x y => x.position ≤ y.position)
    (hat : marksAt arr.position (s.markList a) = kept ++ todo) (hkept : ∀ m ∈ kept, m.candidateOf arr = false)
    (hfires : ∀ m ∈ todo, m.candidateOf arr = true →
      m.onlyReports ∧ ∀ k ∈ m.afterFiring (s.axis a).config.modulus, k.position ≠ arr.position) :
    (firings arr todo kept.length).foldl (fun t f => t.fireMark a arr f.1 f.2) s =
      ((todo.filter fun m => m.candidateOf arr).foldl (fun t m => t.reportFiring a arr m) s).setMarkList a
        (insertMarks ((todo.filter fun m => m.candidateOf arr).filterMap fun m => m.afterFiring (s.axis a).config.modulus)
          ((s.markList a).filter fun m => !m.candidateOf arr)) := by
  induction todo generalizing s kept with
  | nil =>
    have hnone : (s.markList a).filter (fun m => !m.candidateOf arr) = s.markList a := by
      refine List.filter_eq_self.mpr fun m hm => ?_
      by_cases hp : m.position = arr.position
      · have : m ∈ marksAt arr.position (s.markList a) := List.mem_filter.mpr ⟨hm, by simp [hp]⟩
        simp [hkept m (by simpa [hat] using this)]
      · simp [Mark.candidateOf_eq, hp]
    simp [firings, hnone]
  | cons m ms ih =>
    have hmem : m ∈ marksAt arr.position (s.markList a) := by simp [hat]
    have hm : m.position = arr.position := by simpa using (List.mem_filter.mp hmem).2
    have hfires' := fun k hk => hfires k (List.mem_cons_of_mem _ hk)
    cases hc : m.candidateOf arr with
    | false =>
      have hstep := ih (kept := kept ++ [m]) hsorted (by simp [hat])
        (fun k hk => (List.mem_append.mp hk).elim (hkept k) fun hk => by rw [List.mem_singleton.mp hk]; exact hc) hfires'
      rw [firings, hc, if_neg (by simp), List.filter_cons_of_neg (by simp [hc])]
      simpa using hstep
    | true =>
      obtain ⟨honly, hmoved⟩ := hfires m List.mem_cons_self hc
      obtain ⟨l1, l2, hl, hl1, -, hrem⟩ := marksAt_split (l := s.markList a) (p := arr.position) (n := kept.length) (m := m)
        (by rw [hat]; simp)
      have hleft : (l1 ++ l2).Pairwise fun x y => x.position ≤ y.position :=
        hrem ▸ hsorted.sublist (removeNthAt_sublist ..)
      have hgone : marksAt arr.position (l1 ++ l2) = kept ++ ms := marksAt_of_left (hl ▸ hat) hm hl1
      have hothers : (l1 ++ l2).filter (fun k => !k.candidateOf arr) = (s.markList a).filter fun k => !k.candidateOf arr := by
        simp [hl, hc]
      have hfired := (State.fireMark_onlyReports (s := s) (a := a) (arr := arr) honly kept.length).trans
        (State.reposition_split (s := s.reportFiring a arr m) hl hm hl1)
      have hfiltered : (m :: ms).filter (fun k => k.candidateOf arr) = m :: ms.filter fun k => k.candidateOf arr := by
        simp [hc]
      rw [firings, if_pos hc, List.foldl_cons, hfired, hfiltered, List.foldl_cons, List.filterMap_cons]
      change (firings arr ms kept.length).foldl _ ((s.reportFiring a arr m).setMarkList a
        ((m.afterFiring (s.axis a).config.modulus).elim (l1 ++ l2) fun k => insertMark k (l1 ++ l2))) = _
      cases hk : m.afterFiring (s.axis a).config.modulus with
      | none =>
        have hstep := ih (s := (s.reportFiring a arr m).setMarkList a (l1 ++ l2)) (kept := kept)
          (by rwa [State.markList_setMarkList]) (by rwa [State.markList_setMarkList]) hkept hfires'
        rw [Option.elim_none, hstep, State.markList_setMarkList, foldl_reportFiring_setMarkList, State.setMarkList_twice, hothers]
        rfl
      | some k =>
        have hk' := hmoved k hk
        have hstep := ih (s := (s.reportFiring a arr m).setMarkList a (insertMark k (l1 ++ l2))) (kept := kept)
          (by rw [State.markList_setMarkList]; exact insertMark_sorted hleft k)
          (by rw [State.markList_setMarkList, marksAt_insertMark hleft, hgone, if_neg hk', List.append_nil]) hkept hfires'
        rw [Option.elim_some, hstep, State.markList_setMarkList, foldl_reportFiring_setMarkList, State.setMarkList_twice,
          filter_insertMark (by simp [Mark.candidateOf_eq, hk']) hleft, hothers]
        rfl

/-! ## Single marks -/

/-- R49: an arrival whose first mark at the position is a candidate fires it first. -/
theorem exec_arrivalEvaluation_first {m : Mark} {rest : List Mark} (hrun : Running s) (harr : (s.axis a).arrival = some arr)
    (hat : marksAt arr.position (s.markList a) = m :: rest) (harmed : m.armed = true)
    (hq : m.qualifier.admits arr.direction = true) :
    exec (.arrivalEvaluation a) s = .next (considerMarks a arr (rest.map fun k => k.armed) 0
      ((s.setAxis a { s.axis a with arrival := none }).fireMark a arr 0 m)) := by
  rw [exec_arrivalEvaluation hrun harr, hat, List.map_cons, harmed]
  exact congrArg _ (considerMarks_first hat hq)

/-- R49: the one mark at the position, a candidate, fires. -/
theorem exec_arrivalEvaluation_single {m : Mark} {l1 l2 : List Mark} (hrun : Running s) (harr : (s.axis a).arrival = some arr)
    (hl : s.markList a = l1 ++ m :: l2) (hothers : ∀ x ∈ l1 ++ l2, x.position ≠ arr.position)
    (hm : m.position = arr.position) (harmed : m.armed = true) (hq : m.qualifier.admits arr.direction = true)
    (honly : m.onlyReports) :
    exec (.arrivalEvaluation a) s = .next
      (((s.setAxis a { s.axis a with arrival := none }).reportFiring a arr m).setMarkList a
        ((m.afterFiring (s.axis a).config.modulus).elim (l1 ++ l2) fun k => insertMark k (l1 ++ l2))) := by
  have h1 : marksAt arr.position l1 = [] := marksAt_eq_nil fun x hx => hothers x (List.mem_append_left _ hx)
  have h2 : marksAt arr.position l2 = [] := marksAt_eq_nil fun x hx => hothers x (List.mem_append_right _ hx)
  have hat : marksAt arr.position (s.markList a) = [m] := by
    rw [hl, marksAt_append, h1]
    simpa [marksAt, hm] using h2
  rw [exec_arrivalEvaluation_first hrun harr hat harmed hq, State.fireMark_onlyReports honly]
  refine congrArg _ ((State.reposition_split (l1 := l1) (l2 := l2) (by exact hl) hm (by simp [h1])).trans ?_)
  simp [State.reportFiring]

/-- R57: which marks a release action arms. -/
def Mark.armedBy (tag : Word16) (k : Mark) : Mark := if k.armed = false ∧ k.tag = tag then { k with armed := true } else k

/-- R53: a release action arms the HELD marks of its tag. -/
theorem armMatching_armedBy (tag : Word16) (l : List Mark) : armMatching tag exactMask l = l.map (Mark.armedBy tag) := by
  rw [armMatching_exact]
  refine List.map_congr_left fun k _ => ?_
  simp [Mark.armedBy]

/-- R53, R54: a mark at its last firing that releases marks of its own list. -/
theorem State.fireMark_releases {m : Mark} {tag : Word16} (n : Nat) (hreport : m.report = true) (hpulse : m.pulse = none)
    (hcapture : m.capture = none) (hrelease : m.release = some (a, tag)) :
    s.fireMark a arr n m =
      ((s.formRecord (.fire
        { axis := a, tag := m.tag, position := arr.position, direction := arr.direction, skipped := arr.inferred,
          final := m.lastFiring, outputBusy := false, left := m.leftAfter, snapshot := none
          released := some ((s.markList a).countP fun k => !k.armed && k.tag == tag) })).setMarkList a
            ((s.markList a).map (Mark.armedBy tag))).reposition a arr.position n m := by
  simp only [State.fireMark, State.pulseAction, State.releaseAction, State.release, State.fireRecord, hreport, hpulse, hcapture,
    hrelease, armMatching_armedBy, releasedCount_exact, Option.map_none, true_or, if_true]
  rfl

end

/-! ## The statement -/

/-- Settles O24: the candidates by `considerMarks_eq`, those that only report by `foldl_firings_onlyReports`. -/
theorem arrivalsFireTheirCandidates : Obligations.ArrivalsFireTheirCandidates := by
  unfold Obligations.ArrivalsFireTheirCandidates
  refine ⟨?_, ?_, ?_, ?_, ?_⟩
  · intro s a arr hrun harr hnone
    rw [exec_arrivalEvaluation hrun harr]
    refine congrArg _ (considerMarks_none (kept := []) (fun m hm harmed => ?_) rfl)
    obtain ⟨hmem, hp⟩ := List.mem_filter.mp hm
    rcases hnone m hmem (by simpa using hp) harmed with ⟨hq, hd⟩ | ⟨hq, hd⟩ <;> rw [hq, hd] <;> rfl
  · rintro s taken a arr m l1 l2 hrun harr rfl hl hothers hm harmed hq hreport hpulse hcapture hrelease
    have fired := exec_arrivalEvaluation_single hrun harr hl hothers hm harmed (Qualifier.admits_iff.mpr hq)
      ⟨hreport, hpulse, hcapture, hrelease⟩
    refine ⟨fun hc => fired.trans ?_, fun n p hc hn hp => fired.trans ?_, fun p hc hp => fired.trans ?_⟩
    · simp [Mark.afterFiring, State.reportFiring, Mark.lastFiring, Mark.leftAfter, hc]
    · simp [Mark.afterFiring, State.reportFiring, Mark.lastFiring, Mark.leftAfter, hc, hp, hm, show ¬n ≤ 1 by omega]
    · simp [Mark.afterFiring, State.reportFiring, Mark.lastFiring, Mark.leftAfter, hc, hp, hm]
  · rintro s taken a arr l fired hrun harr rfl rfl hsorted rfl hfired
    have hat : (marksAt arr.position (s.markList a)).filter (fun m => m.candidateOf arr) =
        (s.markList a).filter fun m => m.candidateOf arr := by
      rw [marksAt, List.filter_filter]
      exact List.filter_congr fun m _ => by rw [Mark.candidateOf_eq]; cases m.position == arr.position <;> simp
    rw [exec_arrivalEvaluation_firings hrun harr hsorted, ← hat]
    rw [← hat] at hfired
    have hfires := foldl_firings_onlyReports (s := s.setAxis a { s.axis a with arrival := none }) (a := a) (arr := arr)
      (kept := []) hsorted rfl (by simp) fun m hm hc => by
        simpa using hfired m (List.mem_filter.mpr ⟨hm, hc⟩)
    refine congrArg _ (hfires.trans ?_)
    rw [State.axis_setAxis]
    rfl
  · rintro s taken a arr m h l1 l2 hrun harr rfl hl hothers hcand hcount hreport hpulse hcapture hrelease hh harmed hq
    refine ⟨Mark.armedBy h.tag, fun k => rfl, ?_⟩
    rw [Mark.candidateOf_eq] at hcand
    obtain ⟨hm, hmarmed, hmq⟩ : m.position = arr.position ∧ m.armed = true ∧ m.qualifier.admits arr.direction = true := by
      simpa using hcand
    have h1 : marksAt arr.position l1 = [] := marksAt_eq_nil fun x hx => hothers x (List.mem_append_left _ hx)
    have h2 : marksAt arr.position l2 = [] := marksAt_eq_nil fun x hx => hothers x (List.mem_append_right _ hx)
    have hat : marksAt arr.position (s.markList a) = [m, h] := by
      rw [hl, marksAt_append, h1]
      simpa [marksAt, hm, hh] using h2
    have hkept : Mark.armedBy h.tag m = m := by simp [Mark.armedBy, hmarmed]
    have hone : ∀ x : Mark, (Mark.armedBy h.tag x).position = x.position := fun x => by unfold Mark.armedBy; split <;> rfl
    rw [exec_arrivalEvaluation_first hrun harr hat hmarmed hmq, List.map_singleton, harmed, considerMarks_last,
      State.fireMark_releases 0 hreport hpulse hcapture hrelease]
    refine congrArg _ ((State.reposition_split (l1 := l1.map (Mark.armedBy h.tag)) (l2 := (h :: l2).map (Mark.armedBy h.tag))
      (by rw [State.markList_setMarkList, State.setAxis_markList, hl]; simp [hkept]) hm ?_).trans ?_)
    · rw [List.length_eq_zero_iff]
      refine marksAt_eq_nil fun x hx => ?_
      obtain ⟨y, hy, rfl⟩ := List.mem_map.mp hx
      rw [hone]
      exact hothers y (List.mem_append_left _ hy)
    · simp [Mark.afterFiring, hcount, Mark.lastFiring, Mark.leftAfter, hl, hmarmed]
  · rintro s taken a arr l fires hrun harr rfl rfl hsorted rfl
    rw [exec_arrivalEvaluation_firings hrun harr hsorted, firings_marksAt]
    simp

end Sys2Proof.Machine

/-!
PROOF. The trigger lines and the capture lines (chapter 4). They settle O26, O27, O28 and O29.
-/

namespace Sys2Proof.Machine

/-! ## Codes that no option has -/

theorem outputModeOf_eq_none {b : Byte} : outputModeOf b = none ↔ 1 < b.toNat := by revert b; decide
theorem policyOf_eq_none {b : Byte} : policyOf b = none ↔ 1 < b.toNat := by revert b; decide
theorem edgeSelectOf_eq_none {b : Byte} : edgeSelectOf b = none ↔ 3 < b.toNat := by revert b; decide
theorem axisSetOf_eq_none {b : Byte} : axisSetOf b = none ↔ 15 < b.toNat := by revert b; decide
theorem axisSetOf_eq_some {b : Byte} {x : AxisSet} : axisSetOf b = some x ↔ b.toNat = x.toNat := by revert b x; decide

/-! ## Trigger lines (4.1) -/

section
variable {s : State} {n : TriggerNo}

/-- R69: the level of a trigger pin while RESETN is high. -/
theorem State.triggerPin_running (h : Running s) :
    s.triggerPin n =
      if (s.output n).mode = .toggle then (s.output n).toggle
      else if (s.output n).active then !(s.output n).idleLevel else (s.output n).idleLevel := by
  simp only [State.triggerPin, show s.resetLow = false from h, Bool.false_eq_true, if_false]
  cases (s.output n).mode <;> rfl

/-- R70: a claim on an IDLE line in PULSE mode starts a pulse. -/
theorem State.claimPulse_idle (hm : (s.output n).mode = .pulse) (ha : (s.output n).active = false) :
    s.claimPulse n =
      (s.setOutput n { s.output n with active := true, pulseEnd := some (s.clock + (s.output n).width * 20) }, true) := by
  simp [State.claimPulse, OutputLine.claim, hm, ha, State.afterMicros, Config.periodsPerMicro]

/-- R71: a claim on an ACTIVE line starts the pulse afresh under RETRIGGER. -/
theorem State.claimPulse_retrigger (hm : (s.output n).mode = .pulse) (ha : (s.output n).active = true)
    (hp : (s.output n).policy = .retrigger) :
    s.claimPulse n = (s.setOutput n { s.output n with pulseEnd := some (s.clock + (s.output n).width * 20) }, true) := by
  simp [State.claimPulse, OutputLine.claim, hm, ha, hp, State.afterMicros, Config.periodsPerMicro]

/-- R71: a claim on an ACTIVE line is refused under REFUSE. -/
theorem State.claimPulse_refuse (hm : (s.output n).mode = .pulse) (ha : (s.output n).active = true)
    (hp : (s.output n).policy = .refuse) : s.claimPulse n = (s, false) := by
  simp [State.claimPulse, OutputLine.claim, hm, ha, hp]

/-- R73: a claim on a line in TOGGLE mode inverts its level. -/
theorem State.claimPulse_toggle (hm : (s.output n).mode = .toggle) :
    s.claimPulse n =
      (s.setOutput n
        { s.output n with
          toggle := !(s.output n).toggle, active := (!(s.output n).toggle) != (s.output n).idleLevel }, true) := by
  simp [State.claimPulse, OutputLine.claim, hm]

/-- R72: a pulse expires when its end has come. -/
theorem takePulseExpiry_pulse {stop : Nat} (hm : (s.output n).mode = .pulse) (ha : (s.output n).active = true)
    (hstop : (s.output n).pulseEnd = some stop) :
    takePulseExpiry n s =
      if stop ≤ s.clock then s.setOutput n { s.output n with active := false, pulseEnd := none } else s := by
  simp [takePulseExpiry, hm, ha, hstop, State.reached]

end

/-- R75: CONFIGURE_OUTPUT with a field out of range is refused. -/
theorem configureOutput_badArgument {r : Request} {s : State}
    (h : triggerOf (arg8 r.args 0) = none ∨ outputModeOf (arg8 r.args 1) = none ∨ (arg16 r.args 2).toNat = 0
      ∨ onOffOf (arg8 r.args 4) = none ∨ policyOf (arg8 r.args 5) = none) :
    configureOutput r s = answer r .badArgument [] s := by
  unfold configureOutput
  split
  · next h1 h2 h3 h4 =>
    rcases h with h | h | h | h | h
    · rw [h] at h1; cases h1
    · rw [h] at h2; cases h2
    · exact if_pos h
    · rw [h] at h3; cases h3
    · rw [h] at h4; cases h4
  · rfl

/-- Settles O26: the claim by mode, line state and policy. -/
theorem pulseClaimsAreJudged : Obligations.PulseClaimsAreJudged := by
  unfold Obligations.PulseClaimsAreJudged
  refine ⟨?_, fun s r hex => ⟨fun h => exec_request hex ?_, fun n hn => exec_request hex ?_⟩⟩
  · rintro s n l hrun rfl
    have pin (l' : OutputLine) := State.triggerPin_running (s := s.setOutput n l') (n := n) hrun
    simp only [State.output_setOutput] at pin
    refine ⟨fun hm ha => ?_, fun hm ha hp => ?_, fun hm ha hp => State.claimPulse_refuse hm ha hp, fun hm => ?_⟩
    · rw [State.claimPulse_idle hm ha, pin, State.triggerPin_running hrun]
      simp [hm, ha]
    · rw [State.claimPulse_retrigger hm ha hp, pin, State.triggerPin_running hrun]
      simp
    · rw [State.claimPulse_toggle hm, pin, State.triggerPin_running hrun]
      simp [hm]
  · simp [pulseOutput, triggerOf_eq_none.mpr h]
  · simp only [pulseOutput, triggerOf_eq_some.mpr hn]

/-- Settles O27: the expiry by its moment, CONFIGURE_OUTPUT by its fields. -/
theorem outputLinesExpireAndConfigure : Obligations.OutputLinesExpireAndConfigure := by
  unfold Obligations.OutputLinesExpireAndConfigure
  refine ⟨?_, fun s r hex => ⟨fun h => exec_request hex (configureOutput_badArgument ?_), ?_⟩⟩
  · rintro s n l stop hrun rfl hm ha hstop
    refine ⟨(whenRunning_running hrun).trans (congrArg _ (takePulseExpiry_pulse hm ha hstop)), fun _ => ?_⟩
    rw [State.triggerPin_running (s := s.setOutput n _) hrun]
    simp [hm]
  · rwa [triggerOf_eq_none, outputModeOf_eq_none, onOffOf_eq_none, policyOf_eq_none]
  · intro n mode idle policy hn hmode hwidth hidle hpolicy
    refine ⟨_, rfl, exec_request hex ?_, ?_⟩
    · simp only [configureOutput, triggerOf_eq_some.mpr hn, hmode, hidle, hpolicy]
      exact if_neg hwidth
    · rw [State.triggerPin_running (s := s.setOutput n _) hex.1]
      simp

/-! ## Capture lines (4.2) -/

/-- R77: the edges that a line selects. -/
theorem EdgeSelect.takes_iff {x : EdgeSelect} {e : Edge} :
    x.takes e = true ↔ x = .both ∨ (x = .rising ∧ e = .rising) ∨ (x = .falling ∧ e = .falling) := by
  cases x <;> cases e <;> decide

/-- R77: the edges that a line does not select. -/
theorem EdgeSelect.takes_eq_false {x : EdgeSelect} {e : Edge} :
    x.takes e = false ↔ x = .none ∨ (x = .rising ∧ e = .falling) ∨ (x = .falling ∧ e = .rising) := by
  cases x <;> cases e <;> decide

section
variable {s : State} {n : CaptureNo} {e : Edge}

/-- R77: an edge that is not selected, or falls in the holdoff, is dropped. -/
theorem takeCaptureEdge_ignored (hdue : (s.captureLine n).edgeDue = some e) (hw : (s.captureLine n).waiting = none)
    (h : (s.captureLine n).select.takes e = false ∨ (s.captureLine n).holdoffEnd.isSome = true) :
    takeCaptureEdge n s = s.setCaptureLine n { s.captureLine n with edgeDue := none } := by
  have hno : ¬((s.captureLine n).select.takes e = true ∧ (s.captureLine n).holdoffEnd.isNone = true) := by
    rcases h with h | h
    · simp [h]
    · simp [Option.isSome_iff_ne_none.mp h]
  simp only [takeCaptureEdge, hdue, hw]
  exact if_neg hno

/-- R77: a selected edge on an open line is taken. -/
theorem takeCaptureEdge_taken (hdue : (s.captureLine n).edgeDue = some e) (hw : (s.captureLine n).waiting = none)
    (hsel : (s.captureLine n).select.takes e = true) (hopen : (s.captureLine n).holdoffEnd = none) :
    takeCaptureEdge n s = makeCapture n e s := by
  simp [takeCaptureEdge, hdue, hw, hsel, hopen]

end

section
variable {s : State} {n : CaptureNo} {e : Edge} {held : CaptureLine}

/-- R78: a capture on a line without a release target forms its record at once. -/
theorem makeCapture_records (hopen : (s.captureLine n).holdoffEnd = none)
    (hheld : held = { s.captureLine n with
      edgeDue := none
      holdoffEnd := if (s.captureLine n).holdoff = 0 then none else some (s.clock + (s.captureLine n).holdoff * 20) })
    (hr : (s.captureLine n).release = none) :
    makeCapture n e s =
      (s.setCaptureLine n held).formRecord (.capture n e (s.snapshot (s.captureLine n).axes none) none) := by
  subst hheld
  simp [makeCapture, hr, hopen, State.afterMicros, Config.periodsPerMicro]

/-- R78, R80: a capture on a line with a release target waits for its release. -/
theorem makeCapture_waits {target : AxisNo × Word16} (hopen : (s.captureLine n).holdoffEnd = none)
    (hheld : held = { s.captureLine n with
      edgeDue := none
      holdoffEnd := if (s.captureLine n).holdoff = 0 then none else some (s.clock + (s.captureLine n).holdoff * 20) })
    (hr : (s.captureLine n).release = some target) :
    makeCapture n e s = s.setCaptureLine n
      { held with
        waiting := some { edge := e, snapshot := s.snapshot (s.captureLine n).axes none, target := target } } := by
  subst hheld
  simp [makeCapture, hr, hopen, State.afterMicros, Config.periodsPerMicro]

end

/-- Settles O28: the edge by the line's selection and its holdoff. -/
theorem captureEdgesAreJudged : Obligations.CaptureEdgesAreJudged := by
  unfold Obligations.CaptureEdgesAreJudged
  rintro s n l e hrun rfl hdue hw
  refine ⟨fun h => ?_, fun hsel hopen => ⟨s.snapshot (s.captureLine n).axes none, _, ?_, rfl, fun hr => ?_, fun target hr => ?_⟩⟩
  · refine (whenRunning_running hrun).trans (congrArg _ (takeCaptureEdge_ignored hdue hw ?_))
    rw [EdgeSelect.takes_eq_false]
    rcases h with h | h | h | h
    exacts [.inl (.inl h), .inl (.inr (.inl h)), .inl (.inr (.inr h)), .inr h]
  · refine List.map_congr_left fun a _ => ?_
    rw [State.snapEntry_eq]
    cases hst : (s.axis a).state <;> rfl
  · refine (whenRunning_running hrun).trans (congrArg _ ?_)
    rw [takeCaptureEdge_taken hdue hw (EdgeSelect.takes_iff.mpr hsel) hopen]
    exact makeCapture_records hopen rfl hr
  · refine (whenRunning_running hrun).trans (congrArg _ ?_)
    rw [takeCaptureEdge_taken hdue hw (EdgeSelect.takes_iff.mpr hsel) hopen]
    exact makeCapture_waits hopen rfl hr

/-! ## The release target of CONFIGURE_CAPTURE (R83) -/

theorem releaseTargetOf_absent {args : List Byte} (h : arg8 args 6 = 0) : releaseTargetOf args = some none := if_pos h

theorem releaseTargetOf_eq_none {args : List Byte} (h : arg8 args 6 ≠ 0) (ha : 3 < (arg8 args 7).toNat) :
    releaseTargetOf args = none := by
  rw [releaseTargetOf, if_neg h, axisOf_eq_none.mpr ha]

theorem releaseTargetOf_axis {args : List Byte} {a : AxisNo} (h : arg8 args 6 ≠ 0) (ha : (arg8 args 7).toNat = a.val) :
    releaseTargetOf args = some (some (a, arg16 args 8)) := by
  rw [releaseTargetOf, if_neg h, axisOf_eq_some.mpr ha]

/-- R83: CONFIGURE_CAPTURE with a field out of range is refused. -/
theorem configureCapture_badArgument {r : Request} {s : State}
    (h : captureOf (arg8 r.args 0) = none ∨ edgeSelectOf (arg8 r.args 1) = none ∨ 63 < (arg8 r.args 2).toNat
      ∨ axisSetOf (arg8 r.args 3) = none ∨ releaseTargetOf r.args = none) :
    configureCapture r s = answer r .badArgument [] s := by
  unfold configureCapture
  split
  · next h1 h2 h3 h4 =>
    rcases h with h | h | h | h | h
    · rw [h] at h1; cases h1
    · rw [h] at h2; cases h2
    · exact if_pos h
    · rw [h] at h3; cases h3
    · rw [h] at h4; cases h4
  · rfl

/-- Settles O29: the release claim with its count, the expiry by its moment, CONFIGURE_CAPTURE by its fields. -/
theorem captureLinesReleaseExpireAndConfigure : Obligations.CaptureLinesReleaseExpireAndConfigure := by
  unfold Obligations.CaptureLinesReleaseExpireAndConfigure
  refine ⟨?_, ?_, fun s r hex => ⟨fun h => exec_request hex (configureCapture_badArgument ?_), ?_⟩,
    fun args => ⟨releaseTargetOf_absent, releaseTargetOf_eq_none, fun a => releaseTargetOf_axis⟩⟩
  · rintro s n l w target tag hrun rfl hw htarget
    refine (whenRunning_running hrun).trans (congrArg _ ?_)
    simp only [takeCaptureClaim, hw, htarget, State.release, armMatching_exact, releasedCount_exact,
      State.setCaptureLine_markList]
  · rintro s n l stop hrun rfl hstop
    refine (whenRunning_running hrun).trans (congrArg _ ?_)
    simp [takeHoldoffExpiry, State.reached, hstop]
  · rw [captureOf_eq_none, edgeSelectOf_eq_none, axisSetOf_eq_none]
    rcases h with h | h | h | h | ⟨h, ha⟩
    exacts [.inl h, .inr (.inl h), .inr (.inr (.inl h)), .inr (.inr (.inr (.inl h))),
      .inr (.inr (.inr (.inr (releaseTargetOf_eq_none h ha))))]
  · intro n select axes target hn hselect hdepth haxes htarget
    refine exec_request hex ?_
    simp only [configureCapture, captureOf_eq_some.mpr hn, hselect, axisSetOf_eq_some.mpr haxes, htarget]
    exact if_neg (by omega)

end Sys2Proof.Machine

/-!
PROOF. Records, the filter table and the tally units (chapter 5), and the offers to the report queue (6.2). They settle O31,
O33, O34, O35 and O36.
-/

namespace Sys2Proof.Machine

/-! ## The record former (R85, R88) -/

section
variable {s : State} {b : RecordBody} {v : View}

/-- R88: a record is offered to the report queue when its verdict is DELIVER. -/
def State.delivered (s : State) (b : RecordBody) (v : View) : ReportQueue :=
  if (judgeRecord s.reports.table v).1 = .deliver then s.reportQueue.offer { stamp := s.timebase, body := b } else s.reportQueue

/-- R88: a record that names no tally unit. -/
theorem State.formRecord_untallied (hv : b.view = some v) (hu : (judgeRecord s.reports.table v).2 = none) :
    s.formRecord b = s.setQueue (s.delivered b v) := by
  cases hd : (judgeRecord s.reports.table v).1 <;>
    simp [State.formRecord, Reports.form, hv, hu, hd, State.delivered, State.setQueue, State.reportQueue]

/-- R88: a record that names a tally unit gives it its increment, whose TALLY record follows. -/
theorem State.formRecord_tallied {u : UnitNo} (hv : b.view = some v) (hu : (judgeRecord s.reports.table v).2 = some u) :
    s.formRecord b = (s.setTallyUnit u (s.tallyUnit u).increment.1).setQueue
      ((s.tallyUnit u).increment.2.elim (s.delivered b v) fun n =>
        (s.delivered b v).offer { stamp := s.timebase, body := .tally u .threshold n }) := by
  cases hd : (judgeRecord s.reports.table v).1 <;> cases hn : (s.tallyUnit u).increment.2 <;>
    simp only [State.tallyUnit] at hn <;>
    simp [State.formRecord, Reports.form, Reports.tallyOne, hv, hu, hd, hn, State.delivered, State.setQueue, State.reportQueue,
      State.setTallyUnit, State.tallyUnit]

end

/-- Settles O31: the former by whether a unit is named, the views kind by kind. -/
theorem recordsAreFormed : Obligations.RecordsAreFormed := by
  unfold Obligations.RecordsAreFormed
  refine ⟨?_, fun r => ⟨_, rfl, ?_⟩, fun line edge l released => ⟨BitVec.ofNat 16 line.val, ?_, rfl⟩, fun a p drift corrected => rfl,
    fun a p d => rfl, fun a k p => by cases k <;> rfl, fun a old new cause => by cases new <;> rfl, fun u reason n => rfl,
    fun l => rfl⟩
  · rintro s b v delivered hv rfl
    refine ⟨State.formRecord_untallied hv, fun u hu => (State.formRecord_tallied hv hu).trans ?_⟩
    cases (s.tallyUnit u).increment.2 <;> rfl
  · cases r.skipped <;> cases r.final <;> cases r.outputBusy <;> decide
  · have := line.isLt
    simp
    omega

/-! ## Filter entries (R99) -/

/-- R99: the flags value holds no bit that the flags mask does not. -/
theorem and_not_beq_zero_iff {w : Nat} (value mask : BitVec w) :
    ((value &&& ~~~mask) == 0) = true ↔ ∀ i, value.getLsbD i = true → mask.getLsbD i = true := by
  rw [beq_iff_eq, BitVec.eq_of_getLsbD_eq_iff]
  refine ⟨fun h i hi => ?_, fun h i hi => ?_⟩
  · have hlt := BitVec.lt_of_getLsbD hi
    simpa [hi, hlt] using h i hlt
  · cases hv : value.getLsbD i
    · simp [hv]
    · simp [hv, h i hv]

/-- R99, R175: when the sets of a filter entry fit. -/
theorem filterSetsFit_iff {kinds axes mask value : Byte} :
    filterSetsFit kinds axes mask value = true ↔
      kinds.toNat < 64 ∧ axes.toNat < 32 ∧ mask.toNat < 8 ∧ value.toNat < 8
      ∧ ∀ i, value.getLsbD i = true → mask.getLsbD i = true := by
  rw [← and_not_beq_zero_iff]
  simp [filterSetsFit, and_assoc]

theorem verdictOf_isSome {b : Byte} : (verdictOf b).isSome = true ↔ b.toNat ≤ 1 := by revert b; decide
theorem unitOf_eq_none {b : Byte} : unitOf b = none ↔ 7 < b.toNat := by revert b; decide
theorem tallyModeOf_eq_none {b : Byte} : tallyModeOf b = none ↔ 3 < b.toNat := by revert b; decide

/-- R99: the tally unit of a filter entry is absent, or a unit. -/
theorem tallyOf_eq_some {l : List Byte} {o : Option UnitNo} :
    tallyOf l = some o ↔ o.map (fun u => byte8 u.val) = if arg8 l 11 = 0 then none else some (arg8 l 12) := by
  unfold tallyOf
  by_cases h : arg8 l 11 = 0
  · cases o <;> simp only [if_pos h] <;> simp
  · rw [if_neg h, if_neg h]
    cases hu : unitOf (arg8 l 12) with
    | none => cases o with
      | none => simp
      | some u => simpa using fun e => by simp [unitOf_iff.mpr e] at hu
    | some w => cases o with
      | none => simp
      | some u => simp [← unitOf_iff, hu]

theorem tallyOf_isSome {l : List Byte} : (tallyOf l).isSome = true ↔ arg8 l 11 = 0 ∨ (arg8 l 12).toNat ≤ 7 := by
  unfold tallyOf
  split
  · next h => exact iff_of_true rfl (.inl h)
  · next h =>
    cases hu : unitOf (arg8 l 12) with
    | none => exact iff_of_false (by simp) (by rw [unitOf_eq_none] at hu; rintro (e | e); exacts [h e, by omega])
    | some u => exact iff_of_true rfl (.inr (by have := unitOf_eq_some.mp hu; omega))

/-- R99: an entry is read when each of its fields is. -/
theorem filterEntryOf_eq_some {l : List Byte} {f : FilterEntry} :
    filterEntryOf l = some f ↔ ∃ enabled verdict tally, onOffOf (arg8 l 1) = some enabled ∧ verdictOf (arg8 l 10) = some verdict
      ∧ tallyOf l = some tally ∧ filterSetsFit (arg8 l 2) (arg8 l 3) (arg8 l 8) (arg8 l 9) = true
      ∧ f = { enabled := enabled, kinds := (arg8 l 2).truncate 6, axes := (arg8 l 3).truncate 5, keyValue := arg16 l 4,
              keyMask := arg16 l 6, flagsMask := (arg8 l 8).truncate 3, flagsValue := (arg8 l 9).truncate 3,
              verdict := verdict, tally := tally } := by
  constructor
  · intro h
    unfold filterEntryOf at h
    split at h
    · next enabled verdict tally h1 h2 h3 =>
      split at h
      · next hfits => exact ⟨enabled, verdict, tally, h1, h2, h3, hfits, (Option.some.inj h).symm⟩
      · cases h
    · cases h
  · rintro ⟨enabled, verdict, tally, h1, h2, h3, hfits, rfl⟩
    simp only [filterEntryOf, h1, h2, h3]
    exact if_pos hfits

/-- A set cut to the width that holds it is shown as the same byte. -/
theorem byte8_truncate {n : Nat} {b : Byte} (h : b.toNat < 2 ^ n) : byte8 (b.truncate n).toNat = b := by
  have : (b.truncate n).toNat = b.toNat := by simp [Nat.mod_eq_of_lt h]
  rw [this, byte8_toNat]

/-- Settles O33: the requests by their entry number, the entries by `filterEntryOf_eq_some`. -/
theorem filterRequestsAreTaken : Obligations.FilterRequestsAreTaken := by
  unfold Obligations.FilterRequestsAreTaken
  refine ⟨fun s r hex => ⟨fun h => exec_request hex ?_, fun e f he hf => exec_request hex ?_⟩,
    fun s r hex => ⟨fun h => exec_request hex ?_, fun e he => exec_request hex ?_⟩, fun l => ⟨⟨fun h => ?_, fun h => ?_⟩, fun f h => ?_⟩⟩
  · unfold setFilter
    rcases h with h | h
    · simp [entryOf_eq_none.mpr h]
    · cases entryOf (arg8 r.args 0) <;> simp [h]
  · simp [setFilter, entryOf_eq_some.mpr he, hf]
  · simp [readFilter, entryOf_eq_none.mpr h]
  · simp [readFilter, entryOf_eq_some.mpr he]
  · obtain ⟨f, hf⟩ := Option.isSome_iff_exists.mp h
    obtain ⟨enabled, verdict, tally, h1, h2, h3, hfits, -⟩ := filterEntryOf_eq_some.mp hf
    obtain ⟨hkinds, haxes, hmask, hvalue, hflags⟩ := filterSetsFit_iff.mp hfits
    exact ⟨onOffOf_isSome.mp (by simp [h1]), hkinds, haxes, hmask, hvalue, hflags, verdictOf_isSome.mp (by simp [h2]),
      tallyOf_isSome.mp (by simp [h3])⟩
  · obtain ⟨henabled, hkinds, haxes, hmask, hvalue, hflags, hverdict, htally⟩ := h
    obtain ⟨enabled, h1⟩ := Option.isSome_iff_exists.mp (onOffOf_isSome.mpr henabled)
    obtain ⟨verdict, h2⟩ := Option.isSome_iff_exists.mp (verdictOf_isSome.mpr hverdict)
    obtain ⟨tally, h3⟩ := Option.isSome_iff_exists.mp (tallyOf_isSome.mpr htally)
    exact Option.isSome_iff_exists.mpr ⟨_, filterEntryOf_eq_some.mpr
      ⟨enabled, verdict, tally, h1, h2, h3, filterSetsFit_iff.mpr ⟨hkinds, haxes, hmask, hvalue, hflags⟩, rfl⟩⟩
  · obtain ⟨enabled, verdict, tally, h1, h2, h3, hfits, rfl⟩ := filterEntryOf_eq_some.mp h
    obtain ⟨hkinds, haxes, hmask, hvalue, -⟩ := filterSetsFit_iff.mp hfits
    exact ⟨onOffOf_iff.mp h1, byte8_truncate hkinds, byte8_truncate haxes, rfl, rfl, byte8_truncate hmask, byte8_truncate hvalue,
      verdictOf_iff.mp h2, tallyOf_eq_some.mp h3⟩

/-! ## Tally units (R102 to R108) -/

/-- Settles O34: mode by mode. -/
theorem tallyUnitsCount : Obligations.TallyUnitsCount := by
  unfold Obligations.TallyUnitsCount
  rintro t n rfl
  refine ⟨fun hm => ?_, fun hm => ?_, fun hm => ?_, fun hm => ?_⟩ <;> unfold TallyUnit.increment <;> rw [hm]
  · rfl
  · rfl
  dsimp only
  by_cases h : raise32 t.count = t.threshold
  · rw [if_pos h, if_pos (show (if t.count < 4294967295 then t.count + 1 else t.count) = t.threshold from h), ← h]
    rfl
  · rw [if_neg h, if_neg (show ¬(if t.count < 4294967295 then t.count + 1 else t.count) = t.threshold from h)]
    rfl

/-- R107: the fields that a mode uses are in range. -/
theorem tallyFits_eq_false {mode : TallyMode} {threshold window : Nat} :
    tallyFits mode threshold window = false ↔
      ((mode = .once ∨ mode = .restart) ∧ threshold = 0) ∨ (mode = .window ∧ window = 0) := by
  cases mode <;> simp [tallyFits]

/-- Settles O35: the expiry by its moment, the requests by their fields. -/
theorem tallyWindowsAndRequests : Obligations.TallyWindowsAndRequests := by
  unfold Obligations.TallyWindowsAndRequests
  refine ⟨?_, fun s r => ⟨fun hex h => exec_request hex ?_, fun hex h => exec_request hex ?_⟩, ?_, ?_⟩
  · rintro s u t stop hrun rfl hm hstop
    refine (whenRunning_running hrun).trans (congrArg _ ?_)
    simp [takeWindowExpiry, hstop, hm, Config.periodsPerMilli]
  · unfold configureTally
    rcases h with h | h
    · simp [unitOf_eq_none.mpr h]
    · cases unitOf (arg8 r.args 0) <;> simp [tallyModeOf_eq_none.mpr h]
  · unfold readTally
    rcases h with h | h
    · cases onOffOf (arg8 r.args 1) <;> simp [unitOf_eq_none.mpr h]
    · simp [onOffOf_eq_none.mpr h]
  · rintro s r u mode threshold window hex hu hmode rfl rfl
    refine exec_request hex ?_
    simp only [configureTally, unitOf_eq_some.mpr hu, hmode, ← tallyFits_eq_false]
    cases tallyFits mode (arg32 r.args 2).toNat (arg16 r.args 6).toNat <;> rfl
  · intro s r u clear hex hu hclear
    refine exec_request hex ?_
    simp only [readTally, unitOf_eq_some.mpr hu, onOffOf_eq_some.mpr hclear]

/-! ## Offers (R112, R113) -/

/-- Settles O36: by whether the queue is full, and by the kind of the record lost. -/
theorem offersAreAdmittedOrCounted : Obligations.OffersAreAdmittedOrCounted := by
  unfold Obligations.OffersAreAdmittedOrCounted
  refine fun r q => ⟨fun h => if_pos h, fun h hgap => ?_⟩
  have hlost : q.offer r = { q with lost := q.lost.count r.body } := if_neg (Nat.not_lt.mpr h)
  rw [hlost]
  refine ⟨rfl, rfl, ?_⟩
  cases hb : r.body with
  | gap l => exact absurd hb (hgap l)
  | _ => rfl

end Sys2Proof.Machine

/-!
PROOF. The frame check (7.2) and the judging of bytes (7.3): an allowance that is large enough gives the same as any larger one, so
that bytes are judged one after another. They settle O39 and O41.
-/

namespace Sys2Proof.Machine

/-! ## The frame check (R127) -/

/-- R127: the check register takes one more byte. -/
theorem crc_concat (l : List Byte) (b : Byte) : crc (l ++ [b]) = crcByte (crc l) b := List.foldl_concat ..

/-- R127: the bytes after LEN are KIND, body and CRC; they agree when the last two are the check value of the others. -/
theorem crcAgrees_iff {f : Frame} (h : f.body.length ≤ 199) (hi lo : Byte) :
    crcAgrees (byte8 (f.body.length + 1)) (f.kind :: f.body ++ [hi, lo]) = true ↔
      [hi, lo] = bytes16 (crc (byte8 (f.body.length + 1) :: f.kind :: f.body)) := by
  have hlen : (byte8 (f.body.length + 1)).toNat = (f.kind :: f.body).length := by
    simp [byte8]
    omega
  rw [crcAgrees, hlen, List.take_left', List.drop_left', beq_iff_eq, eq_comm] <;> rfl

/-- Settles O39: by the definition of the check register. -/
theorem theFrameCheckIsTheCrc : Obligations.TheFrameCheckIsTheCrc := by
  unfold Obligations.TheFrameCheckIsTheCrc
  refine ⟨rfl, fun l b => crc_concat l b, by simp [crc, crcByte, crcShift], fun f hf => ⟨rfl, fun hi lo => crcAgrees_iff hf hi lo⟩⟩

/-! ## What judging is left -/

/-- What is left to judge: the bytes held and given, squared, as each discard drops the sync byte that began its frame; and in a
frame the bytes that may still be held. -/
def Receiver.load (x : Receiver) (n : Nat) : Nat :=
  (n + x.held.length) ^ 2 + if x.state = .hunt then 0 else n

/-- The load falls with the bytes held and given. -/
theorem Receiver.load_lt_of_fewer {x y : Receiver} {n k : Nat} (h : k + y.held.length < n + x.held.length) :
    y.load k < x.load n := by
  have hsq : (k + y.held.length) ^ 2 + k < (n + x.held.length) ^ 2 := by
    have : (k + y.held.length + 1) ^ 2 ≤ (n + x.held.length) ^ 2 := Nat.pow_le_pow_left h 2
    nlinarith
  unfold Receiver.load
  split <;> split <;> omega

/-- In a frame the load falls with the bytes given. -/
theorem Receiver.load_lt_of_frame {x y : Receiver} {n k : Nat} (hx : x.state ≠ .hunt)
    (h : k + y.held.length ≤ n + x.held.length) (hk : y.state = .hunt ∧ 0 < n ∨ k < n) : y.load k < x.load n := by
  have hsq : (k + y.held.length) ^ 2 ≤ (n + x.held.length) ^ 2 := Nat.pow_le_pow_left h 2
  unfold Receiver.load
  rw [if_neg hx]
  split <;> rcases hk with ⟨hs, hn⟩ | hk <;> simp_all <;> omega

/-- What the receiver leaves to judge when it has taken a byte: the bytes that follow, and those judged again. -/
def Taken.again : Taken → List Byte
  | .more => []
  | .good _ => []
  | .bad held => held

/-- A byte taken leaves less to judge. -/
theorem Receiver.take_load (x : Receiver) (now : Nat) (b : Byte) (n : Nat) :
    (x.take now b).1.load ((x.take now b).2.again.length + n) < x.load (n + 1) := by
  unfold Receiver.take
  cases hs : x.state with
  | hunt =>
    dsimp only
    split
    · exact Receiver.load_lt_of_fewer (by simp [Receiver.hold, Taken.again]; omega)
    · exact Receiver.load_lt_of_fewer (by simp [Taken.again])
  | length =>
    dsimp only
    split
    · exact Receiver.load_lt_of_frame (by simp [hs]) (by simp [Receiver.hold, Taken.again]) (by simp [Taken.again])
    · exact Receiver.load_lt_of_frame (by simp [hs]) (by simp [Receiver.toHunt, Taken.again]; omega) (by simp [Receiver.toHunt])
  | body =>
    exact Receiver.load_lt_of_frame (by simp [hs]) (by simp [Receiver.hold, Taken.again]; omega) (by simp [Taken.again])
  | check =>
    dsimp only
    split
    · exact Receiver.load_lt_of_frame (by simp [hs]) (by simp [Receiver.hold, Taken.again]; omega) (by simp [Taken.again])
    split
    · exact Receiver.load_lt_of_frame (by simp [hs]) (by simp [Receiver.toHunt, Taken.again]; omega) (by simp [Receiver.toHunt])
    · exact Receiver.load_lt_of_frame (by simp [hs]) (by simp [Receiver.toHunt, Taken.again]; omega) (by simp [Receiver.toHunt])

/-! ## One byte judged (R128, R129) -/

/-- R131: a frame handed on leaves the receiver as it is but for the count of discarded frames. -/
theorem routeFrame_rx (f : Frame) (s : State) : ∃ n, (routeFrame f s).rx = { s.rx with discarded := n } := by
  have removal : ∀ q u, (afterRemoval q u).rx = u.rx := fun q u => by
    obtain ⟨_, _, _, e⟩ := afterRemoval_frame q u
    rw [e]
  have heard : (hostHeard s).rx = s.rx := by
    unfold hostHeard
    split <;> rfl
  have kept : ∀ u : State, u.rx = s.rx → ∃ n, u.rx = { s.rx with discarded := n } := fun u h => ⟨s.rx.discarded, h⟩
  have counted : ∃ n, (hostHeard s).countDiscard.rx = { s.rx with discarded := n } :=
    ⟨_, congrArg (fun x : Receiver => { x with discarded := raise16 x.discarded }) heard⟩
  unfold routeFrame acceptRequest takeAck takeNak
  dsimp only
  repeat' split
  all_goals first
    | exact counted
    | exact kept _ heard
    | exact kept _ ((removal ..).trans heard)

/-- What a byte that the receiver has taken brings about. -/
def State.afterTaken (s : State) (x : Receiver) : Taken → State
  | .more => s.setRx x
  | .good f => routeFrame f (s.setRx x)
  | .bad _ => (s.setRx x).countDiscard

/-- The receiver after a byte has been taken, but for the count of discarded frames. -/
theorem State.afterTaken_rx (s : State) (x : Receiver) (t : Taken) : ∃ n, (s.afterTaken x t).rx = { x with discarded := n } := by
  cases t with
  | more => exact ⟨x.discarded, rfl⟩
  | good f => exact routeFrame_rx f (s.setRx x)
  | bad held => exact ⟨_, rfl⟩

/-- R128, R129: one step of the judging. -/
theorem judgeBytes_cons (fuel : Nat) (b : Byte) (rest : List Byte) (s : State) :
    judgeBytes (fuel + 1) (b :: rest) s =
      judgeBytes fuel ((s.rx.take s.clock b).2.again ++ rest)
        (s.afterTaken (s.rx.take s.clock b).1 (s.rx.take s.clock b).2) := by
  rcases h : s.rx.take s.clock b with ⟨x, _ | _ | _⟩ <;> simp [judgeBytes, h, Taken.again, State.afterTaken]

@[simp] theorem judgeBytes_nil (fuel : Nat) (s : State) : judgeBytes fuel [] s = s := by cases fuel <;> rfl

/-- One step of the judging leaves less to judge. -/
theorem afterTaken_load (s : State) (b : Byte) (rest : List Byte) :
    (s.afterTaken (s.rx.take s.clock b).1 (s.rx.take s.clock b).2).rx.load ((s.rx.take s.clock b).2.again ++ rest).length
      < s.rx.load (b :: rest).length := by
  obtain ⟨n, hn⟩ := s.afterTaken_rx (s.rx.take s.clock b).1 (s.rx.take s.clock b).2
  have hsame : ∀ k, (s.afterTaken (s.rx.take s.clock b).1 (s.rx.take s.clock b).2).rx.load k = (s.rx.take s.clock b).1.load k :=
    fun k => by rw [hn]; rfl
  rw [hsame, List.length_append]
  exact s.rx.take_load s.clock b rest.length

/-- An allowance that covers the load gives what any larger one gives. -/
theorem judgeBytes_add {fuel : Nat} {bytes : List Byte} {s : State} (h : s.rx.load bytes.length ≤ fuel) (more : Nat) :
    judgeBytes (fuel + more) bytes s = judgeBytes fuel bytes s := by
  induction fuel generalizing bytes s with
  | zero =>
    cases bytes with
    | nil => simp
    | cons b rest =>
      have := afterTaken_load s b rest
      omega
  | succ fuel ih =>
    cases bytes with
    | nil => simp
    | cons b rest =>
      rw [Nat.add_right_comm, judgeBytes_cons, judgeBytes_cons]
      have := afterTaken_load s b rest
      exact ih (by omega)

/-- The model's allowance covers the load. -/
theorem load_le_judgeFuel (s : State) (bytes : List Byte) : s.rx.load bytes.length ≤ judgeFuel s bytes := by
  have hsq : (bytes.length + s.rx.held.length) ^ 2 + bytes.length ≤ (bytes.length + s.rx.held.length + 2) ^ 2 := by
    have : (bytes.length + s.rx.held.length + 2) ^ 2 =
        (bytes.length + s.rx.held.length) ^ 2 + 4 * (bytes.length + s.rx.held.length) + 4 := by ring
    omega
  unfold Receiver.load judgeFuel
  split <;> omega

/-- An allowance that covers the load judges every byte. -/
theorem judgeBytes_eq_receiveBytes {fuel : Nat} {bytes : List Byte} {s : State} (h : s.rx.load bytes.length ≤ fuel) :
    judgeBytes fuel bytes s = receiveBytes bytes s := by
  unfold receiveBytes
  rcases Nat.le_total fuel (judgeFuel s bytes) with hle | hle
  · obtain ⟨k, hk⟩ := Nat.exists_eq_add_of_le hle
    rw [hk, judgeBytes_add h]
  · obtain ⟨k, hk⟩ := Nat.exists_eq_add_of_le hle
    rw [hk, judgeBytes_add (load_le_judgeFuel s bytes)]

@[simp] theorem receiveBytes_nil (s : State) : receiveBytes [] s = s := judgeBytes_nil ..

/-- R128, R129: one byte, with what its taking has judged again, before those that follow. -/
theorem receiveBytes_step (b : Byte) (rest : List Byte) (s : State) :
    receiveBytes (b :: rest) s =
      receiveBytes ((s.rx.take s.clock b).2.again ++ rest)
        (s.afterTaken (s.rx.take s.clock b).1 (s.rx.take s.clock b).2) := by
  have hfuel := load_le_judgeFuel s (b :: rest)
  have hless := afterTaken_load s b rest
  obtain ⟨fuel, hf⟩ : ∃ n, judgeFuel s (b :: rest) = n + 1 := ⟨judgeFuel s (b :: rest) - 1, by omega⟩
  rw [receiveBytes, hf, judgeBytes_cons]
  exact judgeBytes_eq_receiveBytes (by omega)

/-- Bytes are judged one after another. -/
theorem receiveBytes_append (l₁ l₂ : List Byte) (s : State) :
    receiveBytes (l₁ ++ l₂) s = receiveBytes l₂ (receiveBytes l₁ s) := by
  induction hn : s.rx.load l₁.length using Nat.strong_induction_on generalizing l₁ s with
  | _ n ih =>
    cases l₁ with
    | nil => simp
    | cons b rest =>
      have hless := afterTaken_load s b rest
      rw [List.cons_append, receiveBytes_step, ← List.append_assoc, ih _ (hn ▸ hless) _ _ rfl, ← receiveBytes_step]

/-- Settles O41: by `judgeBytes_add` and `receiveBytes_append`. -/
theorem replayTakesEveryByte : Obligations.ReplayTakesEveryByte := by
  unfold Obligations.ReplayTakesEveryByte
  exact ⟨fun bytes s more => judgeBytes_add (load_le_judgeFuel s bytes) more, receiveBytes_nil,
    fun b bytes s => receiveBytes_append [b] bytes s⟩

end Sys2Proof.Machine

/-!
PROOF. The receiver byte by byte (7.3), and the frames that its bytes make. They settle O42.
-/

namespace Sys2Proof.Machine

/-! ## One byte in each receiver state (R128) -/

section
variable {s : State} {b : Byte} {x : Receiver}

theorem receiveBytes_more (rest : List Byte) (h : s.rx.take s.clock b = (x, .more)) :
    receiveBytes (b :: rest) s = receiveBytes rest (s.setRx x) := by
  rw [receiveBytes_step, h]; rfl

theorem receiveBytes_good (rest : List Byte) {f : Frame} (h : s.rx.take s.clock b = (x, .good f)) :
    receiveBytes (b :: rest) s = receiveBytes rest (routeFrame f (s.setRx x)) := by
  rw [receiveBytes_step, h]; rfl

theorem receiveBytes_bad (rest : List Byte) {held : List Byte} (h : s.rx.take s.clock b = (x, .bad held)) :
    receiveBytes (b :: rest) s = receiveBytes (held ++ rest) (s.setRx x).countDiscard := by
  rw [receiveBytes_step, h]; rfl

variable (now : Nat)

theorem Receiver.take_sync (h : x.state = .hunt) : x.take now syncByte = (x.hold now .length [], .more) := by
  simp [Receiver.take, h]

theorem Receiver.take_hunt (h : x.state = .hunt) (hb : b ≠ syncByte) : x.take now b = (x, .more) := by
  simp [Receiver.take, h, hb]

theorem Receiver.take_len (h : x.state = .length) (hb : lenInRange b = true) :
    x.take now b = (x.hold now .body [b], .more) := by
  simp [Receiver.take, h, hb]

theorem Receiver.take_badLen (h : x.state = .length) (hb : lenInRange b = false) : x.take now b = (x.toHunt, .bad [b]) := by
  simp [Receiver.take, h, hb]

theorem Receiver.take_body {len : Byte} {rest : List Byte} (h : x.state = .body) (hheld : x.held = len :: rest) :
    x.take now b =
      (x.hold now (if rest.length + 1 = len.toNat then .check else .body) (len :: rest ++ [b]), .more) := by
  simp [Receiver.take, h, hheld, Receiver.len]

theorem Receiver.take_firstCrc {len : Byte} {rest : List Byte} (h : x.state = .check) (hheld : x.held = len :: rest)
    (hlen : rest.length = len.toNat) : x.take now b = (x.hold now .check (len :: rest ++ [b]), .more) := by
  simp [Receiver.take, h, hheld, Receiver.len, hlen]

/-- R128: the second CRC byte ends the frame, which is good when the CRC agrees. -/
theorem Receiver.take_secondCrc {len : Byte} {rest : List Byte} (h : x.state = .check) (hheld : x.held = len :: rest)
    (hlen : rest.length = len.toNat + 1) :
    x.take now b = (x.toHunt, if crcAgrees len (rest ++ [b]) then .good (frameOf (len :: rest ++ [b]))
      else .bad (len :: rest ++ [b])) := by
  simp only [Receiver.take, h, hheld, Receiver.len, List.headD_cons, List.length_cons, hlen, List.tail_cons]
  rw [if_neg (by omega)]
  split <;> rfl

end

/-- R127: the CRC of the bytes held agrees when the two CRC bytes are the check value. -/
theorem crcAgrees_held {len kind hi lo : Byte} {body : List Byte} (h : body.length + 1 = len.toNat) :
    crcAgrees len (kind :: body ++ [hi] ++ [lo]) = true ↔ hi ++ lo = crc (len :: kind :: body) := by
  have hlen : len.toNat = (kind :: body).length := h.symm
  rw [List.append_assoc, crcAgrees, hlen, List.take_left', List.drop_left', beq_iff_eq]
  · refine ⟨fun e => ?_, fun e => by rw [← e]; exact bytes16_append hi lo⟩
    obtain ⟨hhi, hlo⟩ : _ = hi ∧ _ = lo := by simpa [bytes16] using e
    rw [← hhi, ← hlo]
    exact append_bytes16 _
  · rfl
  · rfl

/-- 7.2: the frame of the bytes held. -/
theorem frameOf_held {len kind hi lo : Byte} {body : List Byte} (h : body.length + 1 = len.toNat) :
    frameOf (len :: (kind :: body ++ [hi]) ++ [lo]) = { kind := kind, body := body } := by
  have hlen : len.toNat - 1 = body.length := by omega
  simp [frameOf, hlen]

/-- R128: a byte out of the range of LEN is no sync byte. -/
theorem ne_syncByte_of_lenInRange {b : Byte} (h : lenInRange b = false) : b ≠ syncByte := by
  rintro rfl; exact absurd h (by decide)

theorem lenInRange_iff {b : Byte} : lenInRange b = true ↔ 1 ≤ b.toNat ∧ b.toNat ≤ 200 := by simp [lenInRange]

/-- R128, R129: a LEN out of range counts one discard and leaves nothing held. -/
theorem receiveBytes_badLen {s : State} {b : Byte} (h : s.rx.state = .length) (hb : lenInRange b = false) :
    receiveBytes [b] s = (s.setRx s.rx.toHunt).countDiscard := by
  rw [receiveBytes_bad _ (Receiver.take_badLen s.clock h hb), List.append_nil,
    receiveBytes_more [] (Receiver.take_hunt _ rfl (ne_syncByte_of_lenInRange hb)), receiveBytes_nil, State.setRx_self]

/-! ## What comes to the receiver -/

section
variable {s : State}

/-- R125: a byte that can come is judged. -/
theorem exec_rxdByte {b : Byte} (h : CharacterMayCome (.byte b) s) :
    exec (.rxdByte b) s = .next (receiveBytes [b] s.dropDue) := by
  obtain ⟨hrun, hbroken, hcomes⟩ := h
  refine (whenRunning_running hrun).trans (congrArg _ ?_)
  rw [takeRxdByte, if_neg (by simp [hbroken]), if_pos (State.comes_iff.mpr hcomes)]

/-- R129: a character error that can come ends the frame in progress; in HUNT it is ignored. -/
theorem exec_characterError (h : CharacterMayCome .error s) :
    exec (.frameDiscard .characterError) s =
      .next (if s.rx.state = .hunt then s.dropDue else discardFrame s.rx.held s.dropDue) := by
  obtain ⟨hrun, hbroken, hcomes⟩ := h
  refine (whenRunning_running hrun).trans (congrArg _ ?_)
  simp only [takeDiscard]
  rw [if_neg (by simp [hbroken]), if_pos (State.comes_iff.mpr hcomes)]

/-- Log entry 8: a whole frame that can come is taken. -/
theorem takeFrame_of_mayCome (h : FrameMayCome s) (f : Frame) : takeFrame f s = routeFrame f (s.setRx s.rx.toHunt) :=
  if_pos (State.takesFrames_iff.mpr ⟨h.2.1, h.2.2.1, h.2.2.2⟩)

/-- R131: a good frame of a wrong kind or length is heard and counted. -/
theorem routeFrame_wrongKind {f : Frame} (h : wrongKind f = true) : routeFrame f s = (hostHeard s).countDiscard := by
  simp [routeFrame, h]

theorem routeFrame_request (tag code : Byte) (args : List Byte) :
    routeFrame { kind := 0x51, body := tag :: code :: args } s = acceptRequest tag code args (hostHeard s) := by
  simp [routeFrame, wrongKind, kindRequest, arg8]

theorem routeFrame_ack (hi lo : Byte) : routeFrame { kind := 0x52, body := [hi, lo] } s = takeAck (hi ++ lo) (hostHeard s) := by
  simp [routeFrame, wrongKind, kindRequest, kindAck, seqOf, arg16, arg8]

theorem routeFrame_nak (hi lo : Byte) : routeFrame { kind := 0x53, body := [hi, lo] } s = takeNak (hi ++ lo) (hostHeard s) := by
  simp [routeFrame, wrongKind, kindRequest, kindAck, kindNak, seqOf, arg16, arg8]

/-- R131: the frames that are discarded for their kind or length. -/
theorem wrongKind_iff {f : Frame} :
    wrongKind f = true ↔ (f.kind = 0x51 ∧ f.body.length < 2) ∨ ((f.kind = 0x52 ∨ f.kind = 0x53) ∧ f.body.length ≠ 2)
      ∨ (f.kind ≠ 0x51 ∧ f.kind ≠ 0x52 ∧ f.kind ≠ 0x53) := by
  unfold wrongKind kindRequest kindAck kindNak
  by_cases h1 : f.kind = 0x51
  · simp [h1]
  · by_cases h2 : f.kind = 0x52 ∨ f.kind = 0x53
    · rw [if_neg h1, if_pos h2]
      rcases h2 with h2 | h2 <;> simp [h2]
    · rw [if_neg h1, if_neg h2]
      simp_all

end

/-- R132: no leading edge has come before the moment. -/
theorem State.startedBefore_eq_false {s : State} {stop : Nat} (hchar : ∀ c ∈ s.line.char, stop ≤ c.edge)
    (hdue : ∀ d ∈ s.line.due, stop ≤ d.2) : s.startedBefore stop = false := by
  rw [State.startedBefore, Bool.or_eq_false_iff]
  refine ⟨?_, ?_⟩
  · cases h : s.line.char with
    | none => rfl
    | some c => exact decide_eq_false (Nat.not_lt.mpr (hchar c h))
  · cases h : s.line.due with
    | none => rfl
    | some d => exact decide_eq_false (Nat.not_lt.mpr (hdue d h))

/-! ## The statement -/

/-- What one byte that can come brings about in each receiver state. -/
theorem exec_rxdByte_states {s u : State} {b : Byte} {gap : Option Nat} (hcome : CharacterMayCome (.byte b) s)
    (hgap : gap = some (s.clock + 40000)) (hu : u = s.setLine { s.line with due := none }) :
    (s.rx.state = .hunt → exec (.rxdByte b) s = .next
      (if b = 0x9C then u.setRx { s.rx with state := .length, held := [], gap := gap } else u))
    ∧ (s.rx.state = .length → 1 ≤ b.toNat → b.toNat ≤ 200 → exec (.rxdByte b) s = .next
        (u.setRx { s.rx with state := .body, held := [b], gap := gap }))
    ∧ (s.rx.state = .length → b.toNat = 0 ∨ 200 < b.toNat → exec (.rxdByte b) s = .next
        (u.setRx { s.rx with state := .hunt, held := [], gap := none }).countDiscard)
    ∧ (∀ len rest, s.rx.state = .body → s.rx.held = len :: rest → exec (.rxdByte b) s = .next
        (u.setRx { s.rx with
          state := if rest.length + 1 = len.toNat then .check else .body, held := len :: rest ++ [b], gap := gap }))
    ∧ (∀ len rest, s.rx.state = .check → s.rx.held = len :: rest → rest.length = len.toNat → exec (.rxdByte b) s = .next
        (u.setRx { s.rx with state := .check, held := len :: rest ++ [b], gap := gap }))
    ∧ (∀ len kind body hi, s.rx.state = .check → s.rx.held = len :: kind :: body ++ [hi] → body.length + 1 = len.toNat →
      (hi ++ b = crc (len :: kind :: body) → exec (.rxdByte b) s = .next
        (routeFrame { kind := kind, body := body } (u.setRx { s.rx with state := .hunt, held := [], gap := none })))
      ∧ (hi ++ b ≠ crc (len :: kind :: body) → exec (.rxdByte b) s = .next
        (receiveBytes (len :: kind :: body ++ [hi, b]) (u.setRx
          { s.rx with state := .hunt, held := [], gap := none, discarded := raise16 s.rx.discarded })))) := by
  subst hgap hu
  rw [exec_rxdByte hcome]
  have more {x : Receiver} (h : s.rx.take s.clock b = (x, .more)) : receiveBytes [b] s.dropDue = s.dropDue.setRx x :=
    (receiveBytes_more (s := s.dropDue) [] h).trans (receiveBytes_nil _)
  refine ⟨fun h => congrArg _ ?_, fun h hlow hhigh => congrArg _ (more (Receiver.take_len _ h (lenInRange_iff.mpr ⟨hlow, hhigh⟩))),
    fun h hb => congrArg _ (receiveBytes_badLen (s := s.dropDue) h ?_),
    fun len rest h hheld => congrArg _ (more (Receiver.take_body _ h hheld)),
    fun len rest h hheld hlen => congrArg _ (more (Receiver.take_firstCrc _ h hheld hlen)),
    fun len kind body hi h hheld hlen => ?_⟩
  · by_cases hb : b = syncByte
    · exact (more (hb ▸ Receiver.take_sync _ h)).trans (if_pos (c := b = 0x9C) hb).symm
    · exact (more (Receiver.take_hunt _ h hb)).trans (if_neg (c := b = 0x9C) hb).symm
  · exact Bool.eq_false_iff.mpr fun e => by have := lenInRange_iff.mp e; omega
  · have taken := Receiver.take_secondCrc (x := s.rx) (b := b) (len := len) (rest := kind :: body ++ [hi]) s.clock h hheld
      (by simpa using hlen)
    refine ⟨fun hcrc => congrArg _ ?_, fun hcrc => congrArg _ ?_⟩
    · rw [if_pos ((crcAgrees_held hlen).mpr hcrc), frameOf_held hlen] at taken
      exact (receiveBytes_good (s := s.dropDue) [] taken).trans (receiveBytes_nil _)
    · rw [if_neg (fun e => hcrc ((crcAgrees_held hlen).mp e))] at taken
      refine (receiveBytes_bad (s := s.dropDue) [] taken).trans ?_
      rw [List.append_nil]
      simp [State.dropDue, State.setRx, State.setLine, State.countDiscard, Receiver.toHunt]

/-- Settles O42: each receiver state by `exec_rxdByte_states`, the frames by `routeFrame`, the discards by `discardFrame`. -/
theorem bytesAreHeldOrDiscarded : Obligations.BytesAreHeldOrDiscarded := by
  unfold Obligations.BytesAreHeldOrDiscarded
  refine ⟨fun s u b gap => exec_rxdByte_states, ?_, ?_, fun s h => ⟨fun held hheld => ?_, fun kind body hwrong => ?_⟩, ?_,
    fun s => rfl⟩
  · rintro s heard f rfl
    refine ⟨routeFrame_wrongKind, ?_, ?_, ?_, wrongKind_iff⟩
    · rintro tag code args rfl
      exact routeFrame_request tag code args
    · rintro hi lo rfl
      exact routeFrame_ack hi lo
    · rintro hi lo rfl
      exact routeFrame_nak hi lo
  · rintro s u h rfl
    rw [exec_characterError h]
    refine ⟨fun hs => ?_, fun hs => ?_⟩
    · rw [if_neg hs]; rfl
    · rw [if_pos hs]; rfl
  · refine (whenRunning_running h.1).trans (congrArg _ ?_)
    exact if_pos ⟨State.takesFrames_iff.mpr ⟨h.2.1, h.2.2.1, h.2.2.2⟩, hheld⟩
  · refine (whenRunning_running h.1).trans (congrArg _ ?_)
    rw [if_pos hwrong, takeFrame_of_mayCome h, routeFrame_wrongKind hwrong]
    rfl
  · intro s stop hrun hs hgap hchar hdue
    refine (whenRunning_running hrun).trans (congrArg _ ?_)
    have hstart := State.startedBefore_eq_false hchar hdue
    simp only [takeGapExpiry, hgap]
    by_cases hstop : stop ≤ s.clock
    · rw [if_pos ⟨hs, hstop, hstart⟩, if_pos hstop]; rfl
    · rw [if_neg fun e => hstop e.2.1, if_neg hstop]

end Sys2Proof.Machine

/-!
PROOF. Characters (7.1): what a byte does to TXD, period by period, a receiver takes as that byte; and the bytes of a frame taken one
after another are that frame (7.3). They settle O40.
-/

namespace Sys2Proof.Machine

/-! ## A level at RXD -/

section
variable {bit now : Nat} {v : Bool} {x : LineReceiver}

/-- R133: while the break flag is set only the level is seen. -/
theorem LineReceiver.follow_broken : x.follow true bit now v = { x with level := some (x.reach now v) } := rfl

/-- R125: with no character on its way, a change from high to low is the leading edge of one. -/
theorem LineReceiver.follow_idle (h : x.char = none) :
    x.follow false bit now v =
      { x with
        level := some (x.reach now v)
        char := if v = false ∧ x.level.map Prod.fst = some true then some { edge := now, samples := [] } else none } := by
  have high : x.wasHigh = true ↔ x.level.map Prod.fst = some true := beq_iff_eq
  simp only [LineReceiver.follow, h, high, Bool.false_eq_true, if_false, and_comm (a := v = false)]
  split <;> simp

/-- R125: nothing is sampled before the middle of a bit. -/
theorem LineReceiver.follow_before {c : Incoming} (h : x.char = some c) (hnow : now < c.edge + bitMiddle bit c.samples.length) :
    x.follow false bit now v = { x with level := some (x.reach now v) } := by
  simp [LineReceiver.follow, h, Nat.not_le.mpr hnow]

/-- R125: a bit is sampled at its middle. -/
theorem LineReceiver.follow_middle {c : Incoming} (h : x.char = some c) (hnow : c.edge + bitMiddle bit c.samples.length ≤ now) :
    x.follow false bit now v = LineReceiver.sampleBit v c { x with level := some (x.reach now v) } := by
  simp [LineReceiver.follow, h, hnow]

theorem LineReceiver.sampleBit_next {c : Incoming} (hc : c.samples.length < 9) (hv : c.samples = [] → v = false) (x : LineReceiver) :
    x.sampleBit v c = { x with char := some { c with samples := c.samples ++ [v] } } := by
  rw [LineReceiver.sampleBit, if_neg fun ⟨h, e⟩ => by simp [hv h] at e, if_pos hc]

/-- R125: eight bits, the least significant first, are their byte. -/
theorem byteOfBits_bits (b : Byte) : byteOfBits ((List.range 8).map b.getLsbD) = b := by
  revert b
  decide

/-- R125: the stop bit ends the character. -/
theorem LineReceiver.sampleBit_stop {c : Incoming} {b : Byte} (hc : c.samples = false :: (List.range 8).map b.getLsbD)
    (x : LineReceiver) :
    x.sampleBit v c = { x with char := none, due := some (if v then .byte b else .error, c.edge) } := by
  rw [LineReceiver.sampleBit, if_neg (by simp [hc]), if_neg (by simp [hc]), hc, List.tail_cons, byteOfBits_bits]

end

/-! ## A character taken as it is sent (R125) -/

/-- The level in the middle of bit `j` of a character. -/
def middleLevel (bit : Nat) (b : Byte) (j : Nat) : Bool := characterLevel bit b (bitMiddle bit j)

/-- R125: in the middles of its bits a character shows a low start bit, then the byte. -/
theorem map_middleLevel {bit : Nat} (hbit : 2 ≤ bit) (b : Byte) :
    (List.range 9).map (middleLevel bit b) = false :: (List.range 8).map b.getLsbD := by
  have hlt : bit / 2 < bit := by omega
  have start : middleLevel bit b 0 = false := if_pos (by rw [bitMiddle]; omega)
  have data (j : Nat) (hj : j < 8) : middleLevel bit b (j + 1) = b.getLsbD j := by
    have hlow : bit ≤ bitMiddle bit (j + 1) := by rw [bitMiddle, Nat.succ_mul]; omega
    have hhigh : bitMiddle bit (j + 1) < 9 * bit := by
      have := Nat.mul_le_mul_right bit (show j + 2 ≤ 9 by omega)
      rw [bitMiddle]
      rw [Nat.add_mul] at this ⊢
      omega
    rw [middleLevel, characterLevel, if_neg (Nat.not_lt.mpr hlow), if_pos hhigh, bitMiddle, Nat.mul_comm,
      Nat.mul_add_div (by omega), Nat.div_eq_of_lt hlt]
    rfl
  rw [List.range_succ_eq_map, List.map_cons, start, List.map_map]
  exact congrArg _ (List.map_congr_left fun j hj => data j (List.mem_range.mp hj))

/-- R125: the stop bit is high. -/
theorem characterLevel_stop {bit since : Nat} (b : Byte) (h : 9 * bit ≤ since) : characterLevel bit b since = true := by
  rw [characterLevel, if_neg (by omega), if_neg (by omega)]

/-- R125: the receiver has sampled the first `m` bits of a character that began at `edge`, when `k` clock periods of it have passed. -/
structure LineReceiver.Receiving (bit edge : Nat) (b : Byte) (due : Option (Character × Nat)) (k m : Nat) (x : LineReceiver) : Prop where
  char : x.char = some { edge := edge, samples := (List.range m).map (middleLevel bit b) }
  due : x.due = due
  few : m ≤ 9
  time : k ≤ bitMiddle bit m

/-- R125: the receiver has the whole character, in its stop bit. -/
structure LineReceiver.Received (bit edge : Nat) (b : Byte) (k : Nat) (x : LineReceiver) : Prop where
  char : x.char = none
  due : x.due = some (.byte b, edge)
  time : 9 * bit < k
  level : ∃ since, x.level = some (true, since)

section
variable {bit edge k m : Nat} {b : Byte} {due : Option (Character × Nat)} {x : LineReceiver}

/-- R125: one more clock period of a character on its way. -/
theorem LineReceiver.Receiving.follow (hbit : 2 ≤ bit) (h : x.Receiving bit edge b due k m) :
    (∃ m', (x.follow false bit (edge + k) (characterLevel bit b k)).Receiving bit edge b due (k + 1) m')
    ∨ (x.follow false bit (edge + k) (characterLevel bit b k)).Received bit edge b (k + 1) := by
  obtain ⟨hchar, hdue, hfew, htime⟩ := h
  have hlen : ((List.range m).map (middleLevel bit b)).length = m := by simp
  by_cases hk : k < bitMiddle bit m
  · rw [LineReceiver.follow_before hchar (by simp only [hlen]; omega)]
    exact .inl ⟨m, hchar, hdue, hfew, hk⟩
  · obtain rfl : k = bitMiddle bit m := by omega
    rw [LineReceiver.follow_middle hchar (by simp only [hlen]; omega)]
    by_cases hm : m < 9
    · rw [LineReceiver.sampleBit_next (by simpa using hm)]
      · refine .inl ⟨m + 1, ?_, hdue, hm, ?_⟩
        · rw [List.range_succ, List.map_append]
          rfl
        · rw [bitMiddle, bitMiddle, Nat.succ_mul]
          omega
      · intro hempty
        obtain rfl : m = 0 := by simpa using hempty
        exact if_pos (by rw [bitMiddle]; omega)
    · obtain rfl : m = 9 := by omega
      have hstop : characterLevel bit b (bitMiddle bit 9) = true := characterLevel_stop b (by rw [bitMiddle]; omega)
      rw [LineReceiver.sampleBit_stop (map_middleLevel hbit b), hstop]
      refine .inr ⟨rfl, rfl, by rw [bitMiddle]; omega, ?_⟩
      unfold LineReceiver.reach
      split
      · exact ⟨_, rfl⟩
      · next l since _ => cases l <;> exact ⟨_, rfl⟩

/-- R125: one more clock period of a stop bit changes nothing. -/
theorem LineReceiver.Received.follow (h : x.Received bit edge b k) :
    (x.follow false bit (edge + k) (characterLevel bit b k)).Received bit edge b (k + 1) := by
  obtain ⟨hchar, hdue, htime, since, hlevel⟩ := h
  rw [characterLevel_stop b (by omega), LineReceiver.follow_idle hchar]
  exact ⟨rfl, hdue, by omega, since, by simp [LineReceiver.reach, hlevel]⟩

/-- R125: the first clock period of a character. -/
theorem LineReceiver.follow_first (hbit : 2 ≤ bit) {since : Nat} (hlevel : x.level = some (true, since)) (hchar : x.char = none) :
    (x.follow false bit (edge + 0) (characterLevel bit b 0)).Receiving bit edge b x.due 1 0 := by
  have hlow : characterLevel bit b 0 = false := if_pos (by omega)
  rw [hlow, LineReceiver.follow_idle hchar]
  exact ⟨by simp [hlevel], rfl, by omega, by rw [bitMiddle]; omega⟩

/-- R125: the clock periods of a character, one after another. -/
theorem LineReceiver.follow_character (hbit : 2 ≤ bit) {since : Nat} (hlevel : x.level = some (true, since)) (hchar : x.char = none) (k : Nat) :
    (∃ m, ((List.range (k + 1)).foldl (fun y k => y.follow false bit (edge + k) (characterLevel bit b k)) x).Receiving
        bit edge b x.due (k + 1) m)
    ∨ ((List.range (k + 1)).foldl (fun y k => y.follow false bit (edge + k) (characterLevel bit b k)) x).Received bit edge b (k + 1) := by
  induction k with
  | zero => exact .inl ⟨0, LineReceiver.follow_first hbit hlevel hchar⟩
  | succ k ih =>
    rw [List.range_succ, List.foldl_concat]
    rcases ih with ⟨m, h⟩ | h
    · exact h.follow hbit
    · exact .inr h.follow

/-- R125: what a byte does to TXD, a receiver that waits takes as that byte. -/
theorem LineReceiver.takes_character (hbit : 2 ≤ bit) {since : Nat} (hlevel : x.level = some (true, since)) (hchar : x.char = none) :
    ∃ high, (List.range (10 * bit)).foldl (fun y k => y.follow false bit (edge + k) (characterLevel bit b k)) x =
      { level := some (true, high), char := none, due := some (.byte b, edge) } := by
  obtain ⟨k, hk⟩ : ∃ k, 10 * bit = k + 1 := ⟨10 * bit - 1, by omega⟩
  rw [hk]
  rcases LineReceiver.follow_character (edge := edge) (b := b) hbit hlevel hchar k with ⟨m, h⟩ | ⟨hchar, hdue, -, high, hhigh⟩
  · have hm := Nat.mul_le_mul_right bit h.few
    have := h.time
    rw [bitMiddle] at this
    omega
  · exact ⟨high, by rw [← hchar, ← hdue, ← hhigh]⟩

end

/-! ## The bytes of a frame (R128) -/

theorem judgeBytes_broken (fuel : Nat) (bytes : List Byte) (s : State) : (judgeBytes fuel bytes s).rx.broken = s.rx.broken := by
  induction fuel generalizing bytes s with
  | zero => rfl
  | succ fuel ih =>
    cases bytes with
    | nil => rfl
    | cons b rest =>
      obtain ⟨n, hn⟩ := s.afterTaken_rx (s.rx.take s.clock b).1 (s.rx.take s.clock b).2
      rw [judgeBytes_cons, ih, hn]
      exact s.rx.take_broken s.clock b

/-- Bytes by command, while RXD has not been seen, are judged one after another. -/
theorem execAll_rxdBytes (bytes : List Byte) {s : State} (hrun : Running s) (hbroken : s.rx.broken = false)
    (hlevel : s.line.level = none) (hdue : s.line.due = none) :
    execAll (bytes.map Instr.rxdByte) s = .next (receiveBytes bytes s) := by
  induction bytes generalizing s with
  | nil => rw [receiveBytes_nil]; rfl
  | cons b rest ih =>
    have hdrop : s.dropDue = s := by
      rw [State.dropDue, ← hdue]
      rfl
    obtain ⟨_, _, _, _, _, e⟩ := receiveBytes_frame [b] s
    have hstep := exec_rxdByte (b := b) ⟨hrun, hbroken, .inl hlevel⟩
    rw [hdrop] at hstep
    rw [List.map_cons, execAll, hstep]
    exact (ih (s := receiveBytes [b] s) (by rw [e]; exact hrun) ((judgeBytes_broken ..).trans hbroken) (by rw [e]; exact hlevel)
      (by rw [e]; exact hdue)).trans (congrArg _ (receiveBytes_append [b] rest s).symm)

/-- R128: the KIND and body bytes of a frame are held one after another. -/
theorem receiveBytes_payload {len : Byte} {got l : List Byte} (rest : List Byte) {s : State} (hl : l ≠ []) (hstate : s.rx.state = .body)
    (hheld : s.rx.held = len :: got) (hlen : got.length + l.length = len.toNat) :
    receiveBytes (l ++ rest) s = receiveBytes rest (s.setRx (s.rx.hold s.clock .check (len :: got ++ l))) := by
  induction l generalizing got s with
  | nil => exact absurd rfl hl
  | cons b l ih =>
    rw [List.length_cons] at hlen
    rw [List.cons_append, receiveBytes_more _ (Receiver.take_body s.clock hstate hheld)]
    cases l with
    | nil =>
      rw [if_pos (by simpa using hlen)]
      rfl
    | cons c l =>
      rw [if_neg (by simp only [List.length_cons] at hlen; omega),
        ih (by simp) rfl (List.cons_append ..) (by simp only [List.length_append, List.length_cons, List.length_nil] at hlen ⊢; omega)]
      simp [State.setRx, Receiver.hold]

/-- R128: in HUNT the bytes of a frame, from its sync byte to its second CRC byte, are that frame when its CRC agrees, and its
discard when it does not. -/
theorem receiveBytes_frameBytes {len : Byte} {payload : List Byte} (hi lo : Byte) {s : State} (hunt : s.rx.state = .hunt)
    (hrange : lenInRange len = true) (hlen : payload.length = len.toNat) :
    receiveBytes (syncByte :: len :: (payload ++ [hi, lo])) s =
      if crcAgrees len (payload ++ [hi, lo]) then routeFrame (frameOf (len :: (payload ++ [hi, lo]))) (s.setRx s.rx.toHunt)
      else discardFrame (len :: (payload ++ [hi, lo])) s := by
  have hpayload : payload ≠ [] := by
    rintro rfl
    have := (lenInRange_iff.mp hrange).1
    rw [List.length_nil] at hlen
    omega
  have held : receiveBytes (syncByte :: len :: (payload ++ [hi, lo])) s =
      receiveBytes [lo] (s.setRx (s.rx.hold s.clock .check (len :: payload ++ [hi]))) :=
    calc
      _ = receiveBytes (len :: (payload ++ [hi, lo])) (s.setRx (s.rx.hold s.clock .length [])) :=
        receiveBytes_more _ (Receiver.take_sync s.clock hunt)
      _ = receiveBytes (payload ++ [hi, lo]) (s.setRx (s.rx.hold s.clock .body [len])) :=
        receiveBytes_more (s := s.setRx (s.rx.hold s.clock .length [])) _ (Receiver.take_len s.clock rfl hrange)
      _ = receiveBytes [hi, lo] (s.setRx (s.rx.hold s.clock .check (len :: payload))) :=
        receiveBytes_payload (got := []) [hi, lo] hpayload rfl rfl (by simpa using hlen)
      _ = _ :=
        receiveBytes_more (s := s.setRx (s.rx.hold s.clock .check (len :: payload))) _
          (Receiver.take_firstCrc s.clock rfl rfl hlen)
  rw [held]
  have taken : (s.rx.hold s.clock .check (len :: payload ++ [hi])).take s.clock lo =
      (s.rx.toHunt, if crcAgrees len (payload ++ [hi, lo]) then .good (frameOf (len :: (payload ++ [hi, lo])))
        else .bad (len :: (payload ++ [hi, lo]))) := by
    refine (Receiver.take_secondCrc s.clock rfl (List.cons_append ..) (by simp [hlen])).trans ?_
    simp [Receiver.hold, Receiver.toHunt]
  by_cases hcrc : crcAgrees len (payload ++ [hi, lo]) = true
  · rw [if_pos hcrc]
    rw [if_pos hcrc] at taken
    rw [receiveBytes_good (s := s.setRx (s.rx.hold s.clock .check (len :: payload ++ [hi]))) [] taken, receiveBytes_nil]
    rfl
  · rw [if_neg hcrc]
    rw [if_neg hcrc] at taken
    rw [receiveBytes_bad (s := s.setRx (s.rx.hold s.clock .check (len :: payload ++ [hi]))) [] taken, List.append_nil]
    rfl

/-- R128: in HUNT the bytes of a good frame are that frame. -/
theorem receiveBytes_goodFrame {f : Frame} {s : State} (hunt : s.rx.state = .hunt) (hf : f.body.length ≤ 199) :
    receiveBytes f.bytes s = routeFrame f (s.setRx s.rx.toHunt) := by
  have hlen : (f.kind :: f.body).length = (byte8 (f.body.length + 1)).toNat := by
    simp [byte8]
    omega
  have hrange : lenInRange (byte8 (f.body.length + 1)) = true := by
    rw [lenInRange_iff, ← hlen, List.length_cons]
    omega
  refine (receiveBytes_frameBytes _ _ hunt hrange hlen).trans ((if_pos ((crcAgrees_iff hf _ _).mpr rfl)).trans ?_)
  have frame (hi lo : Byte) : frameOf (byte8 (f.body.length + 1) :: (f.kind :: f.body ++ [hi, lo])) = f := by
    simpa using frameOf_held (kind := f.kind) (body := f.body) (hi := hi) (lo := lo) hlen
  exact congrArg (fun g => routeFrame g (s.setRx s.rx.toHunt)) (frame _ _)

/-- R129: in HUNT the bytes of a damaged frame are its discard. -/
theorem receiveBytes_damaged {held : List Byte} {s : State} (hunt : s.rx.state = .hunt) (h : damagedBytes held = true) :
    receiveBytes (syncByte :: held) s = discardFrame held s := by
  obtain _ | ⟨len, rest⟩ := held
  · exact absurd h (by decide)
  rw [damagedBytes] at h
  by_cases hrange : lenInRange len = true
  · obtain ⟨hlength, hcrc⟩ : rest.length = len.toNat + 2 ∧ crcAgrees len rest = false := by simpa [hrange] using h
    obtain ⟨payload, hi, lo, rfl, hpayload⟩ : ∃ payload hi lo, rest = payload ++ [hi, lo] ∧ payload.length = len.toNat := by
      obtain ⟨hi, lo, hlast⟩ := List.length_eq_two.mp (show (rest.drop len.toNat).length = 2 by simp [hlength])
      exact ⟨rest.take len.toNat, hi, lo, by rw [← hlast, List.take_append_drop], by simp [hlength]⟩
    rw [receiveBytes_frameBytes hi lo hunt hrange hpayload, if_neg (by simp [hcrc])]
  · obtain rfl : rest = [] := by simpa [hrange] using h
    rw [Bool.not_eq_true] at hrange
    rw [receiveBytes_more _ (Receiver.take_sync s.clock hunt), receiveBytes_badLen rfl hrange, discardFrame,
      receiveBytes_more [] (Receiver.take_hunt _ rfl (ne_syncByte_of_lenInRange hrange)), receiveBytes_nil]
    rfl

/-! ## The statement -/

/-- Settles O40: characters by `LineReceiver.takes_character`, levels by `LineReceiver.follow`, frames by `receiveBytes_frameBytes`. -/
theorem bytesMakeTheirFrame : Obligations.BytesMakeTheirFrame := by
  unfold Obligations.BytesMakeTheirFrame
  refine ⟨fun bit edge since b x hbit hlevel hchar => LineReceiver.takes_character hbit hlevel hchar, ?_, ?_⟩
  · rintro bit now v x level hreach
    obtain rfl : level = x.reach now v := by
      rw [hreach]
      unfold LineReceiver.reach
      cases x.level <;> rfl
    refine ⟨LineReceiver.follow_broken, LineReceiver.follow_idle, fun edge samples hchar => ⟨LineReceiver.follow_before hchar, ?_⟩⟩
    intro hmiddle
    rw [LineReceiver.follow_middle hchar hmiddle]
    refine ⟨?_, ?_, ?_⟩
    · rintro rfl rfl
      rfl
    · exact fun hfew hv => LineReceiver.sampleBit_next hfew hv _
    · exact fun b hsamples => LineReceiver.sampleBit_stop hsamples _
  · intro s hcome hdue
    obtain ⟨hrun, hbroken, hlevel, hunt⟩ := hcome
    have good (f : Frame) (hf : f.body.length ≤ 199) :
        execAll (f.bytes.map Instr.rxdByte) s = whenRunning (takeFrame f) s := by
      rw [execAll_rxdBytes _ hrun hbroken hlevel hdue, receiveBytes_goodFrame hunt hf, whenRunning_running hrun,
        takeFrame_of_mayCome ⟨hrun, hbroken, hlevel, hunt⟩]
    refine ⟨fun tag code args hargs => good _ (by simp only [List.length_cons]; omega), fun n => good _ (by simp [bytes16]),
      fun n => good _ (by simp [bytes16]), fun kind body hwell => ?_, fun held hdamaged => ?_⟩
    · obtain ⟨hbody, hwrong⟩ : body.length ≤ 199 ∧ wrongKind { kind := kind, body := body } = true := by
        simpa [Instr.wellFormed] using hwell
      refine (good _ hbody).trans ?_
      refine Eq.trans ?_ (whenRunning_running (f := fun s =>
        if wrongKind { kind := kind, body := body } then takeFrame { kind := kind, body := body } s else s) hrun).symm
      rw [whenRunning_running hrun, if_pos hwrong]
    · rw [execAll_rxdBytes _ hrun hbroken hlevel hdue]
      refine (congrArg _ (receiveBytes_damaged hunt hdamaged)).trans ?_
      refine Eq.trans ?_ (whenRunning_running (f := takeDiscard (.damaged held)) hrun).symm
      rw [takeDiscard, if_pos ⟨State.takesFrames_iff.mpr ⟨hbroken, hlevel, hunt⟩, hdamaged⟩]

end Sys2Proof.Machine

/-!
PROOF. The transmitter (7.5): the arbiter's choice, the completion of a frame and the level of TXD. They settle O44 and O45.
-/

namespace Sys2Proof.Machine

/-! ## The arbiter's choice (R136) -/

section
variable {s : State}

theorem takeArbiter_announce (hframe : s.tx.frame = none) (hbroken : s.rx.broken = false) {cause : AnnounceCause}
    (h : s.tx.announce = some cause) :
    takeArbiter s = { s with tx := { s.tx with announce := none } }.startFrame .announce
      { kind := kindAnnounce, body := s.announceBody cause } := by
  simp [takeArbiter, hframe, hbroken, h]

theorem takeArbiter_reply (hframe : s.tx.frame = none) (hbroken : s.rx.broken = false) (hannounce : s.tx.announce = none)
    {i : SlotNo} {rest : List SlotNo} {r : Reply} (horder : s.handler.order = i :: rest)
    (h : s.handler.slots.get i = .completed r) :
    takeArbiter s = s.startFrame (.reply i) { kind := kindReply, body := r.body } := by
  simp [takeArbiter, hframe, hbroken, hannounce, horder, h]

theorem takeArbiter_report (hframe : s.tx.frame = none) (hbroken : s.rx.broken = false) (hannounce : s.tx.announce = none)
    (horder : s.handler.order = []) : takeArbiter s = if s.reportAllowed then startReport s else s := by
  simp [takeArbiter, hframe, hbroken, hannounce, horder]

/-- R118: a REPORT is allowed in an OPEN session with room in its window and an entry that is PENDING. -/
theorem State.reportAllowed_iff :
    s.reportAllowed = true ↔ s.session.state = .opened ∧ s.reportQueue.outstanding < s.session.window
      ∧ ∃ e ∈ s.reportQueue.entries, e.state = .pending := by
  simp [State.reportAllowed, ReportQueue.hasPending, and_assoc]

/-- R118: the oldest PENDING entry is marked sent. -/
theorem markFirst_append {old : List QueueEntry} (hold : ∀ x ∈ old, x.state = .outstanding) {e : QueueEntry} (he : e.state = .pending)
    (new : List QueueEntry) {sent : QueueEntry}
    (hsent : sent = { e with state := .outstanding, sends := if e.sends < 255 then e.sends + 1 else e.sends }) :
    markFirst (old ++ e :: new) = some (sent, old ++ sent :: new) := by
  subst hsent
  induction old with
  | nil => exact if_pos he
  | cons x old ih =>
    have hx : x.state ≠ .pending := by rw [hold x (by simp)]; decide
    rw [List.cons_append, markFirst, if_neg hx, ih fun y hy => hold y (by simp [hy])]
    rfl

end

/-- Settles O44: by `takeArbiter_announce`, `takeArbiter_reply` and `takeArbiter_report`. -/
theorem theArbiterChoosesInOrder : Obligations.TheArbiterChoosesInOrder := by
  unfold Obligations.TheArbiterChoosesInOrder
  intro s hrun hframe hbroken
  refine ⟨fun cause h => ?_, fun i rest r hannounce horder h => ?_, ?_, fun hannounce horder hnot => ?_⟩
  · exact (whenRunning_running hrun).trans (congrArg _ (takeArbiter_announce hframe hbroken h))
  · exact (whenRunning_running hrun).trans (congrArg _ (takeArbiter_reply hframe hbroken hannounce horder h))
  · intro old e new hannounce horder hopen hwindow hentries hold he
    refine ⟨_, rfl, (whenRunning_running hrun).trans (congrArg _ ?_)⟩
    have hallowed : s.reportAllowed = true := State.reportAllowed_iff.mpr ⟨hopen, hwindow, e, by simp [hentries], he⟩
    have hsent := markFirst_append hold he new rfl
    rw [takeArbiter_report hframe hbroken hannounce horder, if_pos hallowed, startReport, ReportQueue.markSent, hentries, hsent]
    rfl
  · refine (whenRunning_running hrun).trans (congrArg _ ?_)
    rw [takeArbiter_report hframe hbroken hannounce horder, if_neg]
    intro hallowed
    obtain ⟨hopen, hwindow, e, he, hpending⟩ := State.reportAllowed_iff.mp hallowed
    rcases hnot with h | h | h
    · exact h hopen
    · omega
    · simp [h e he] at hpending

/-! ## The completion of a frame (R135) -/

section
variable {s : State} {straps : BitVec 2} {f : Sending}

/-- R135: a frame is not complete before the last stop bit ends. -/
theorem takeCompletion_before (hf : s.tx.frame = some f) (h : s.clock < f.ends s.straps) : takeCompletion straps s = s := by
  simp [takeCompletion, hf, h]

theorem takeCompletion_announce (hf : s.tx.frame = some f) (h : f.ends s.straps ≤ s.clock) (hsource : f.source = .announce) :
    takeCompletion straps s = s.endFrame := by
  simp [takeCompletion, hf, Nat.not_lt.mpr h, hsource]

theorem takeCompletion_report (hf : s.tx.frame = some f) (h : f.ends s.straps ≤ s.clock) (hsource : f.source = .report) :
    takeCompletion straps s = reportCompleted s.endFrame := by
  simp [takeCompletion, hf, Nat.not_lt.mpr h, hsource]

theorem takeCompletion_reply (hf : s.tx.frame = some f) (h : f.ends s.straps ≤ s.clock) {i : SlotNo} (hsource : f.source = .reply i)
    (hreset : s.handler.resetReply i = false) : takeCompletion straps s = s.endFrame.setHandler (s.handler.sent i) := by
  simp [takeCompletion, hf, Nat.not_lt.mpr h, hsource, hreset]

end

/-- R157: only the reply of a RESET_DEVICE that was taken lets the reset take effect. -/
theorem Handler.resetReply_eq_false {h : Handler} {i : SlotNo}
    (hno : h.mode = .taking ∨ ∀ r, h.slots.get i = .completed r → r.code ≠ 0x61 ∨ r.status ≠ .ok) : h.resetReply i = false := by
  unfold Handler.resetReply
  split
  · next r hmode hslot =>
    rcases hno with hno | hno
    · rw [hno] at hmode
      cases hmode
    · rw [Bool.and_eq_false_iff, beq_eq_false_iff_ne, beq_eq_false_iff_ne]
      exact hno r hslot
  · rfl

/-! ## The level of TXD (R125) -/

section
variable {bit since : Nat} {b : Byte}

theorem characterLevel_start (h : since < bit) : characterLevel bit b since = false := if_pos h

theorem characterLevel_data {j : Nat} (hj : j < 8) (hlow : (j + 1) * bit ≤ since) (hhigh : since < (j + 2) * bit) :
    characterLevel bit b since = b.getLsbD j := by
  have hdiv : since / bit = j + 1 := Nat.div_eq_of_lt_le hlow hhigh
  have hfirst : ¬ since < bit := by rw [Nat.succ_mul] at hlow; omega
  have hlast : since < 9 * bit := Nat.lt_of_lt_of_le hhigh (Nat.mul_le_mul_right bit (by omega))
  rw [characterLevel, if_neg hfirst, if_pos hlast, hdiv]
  rfl

/-- The level of TXD in the byte being sent, or in the one that a break lets go out. -/
theorem State.txdPin_eq {s : State} (hrun : Running s)
    (h : (∃ f k, s.tx.frame = some f ∧ f.bytes[k]? = some b ∧ s.clock = f.started + k * (10 * bitPeriods s.straps) + since
        ∧ since < 10 * bitPeriods s.straps)
      ∨ (s.tx.frame = none ∧ ∃ start, s.tx.tail = some (b, start) ∧ s.clock = start + since)) :
    s.txdPin = characterLevel (bitPeriods s.straps) b since := by
  rw [State.txdPin, if_neg (by rw [hrun]; decide)]
  rcases h with ⟨f, k, hframe, hbyte, hclock, hsince⟩ | ⟨hframe, start, htail, hclock⟩
  · have hgone : s.clock - f.started = k * (10 * bitPeriods s.straps) + since := by omega
    have hdiv : (s.clock - f.started) / bytePeriods s.straps = k := by
      rw [hgone, bytePeriods, Nat.mul_comm, Nat.mul_add_div (by omega), Nat.div_eq_of_lt hsince, Nat.add_zero]
    have hmod : (s.clock - f.started) % bytePeriods s.straps = since := by
      rw [hgone, bytePeriods, Nat.mul_comm, Nat.mul_add_mod, Nat.mod_eq_of_lt hsince]
    simp only [hframe, hdiv, hmod, hbyte]
  · have hgone : s.clock - start = since := by omega
    simp only [hframe, htail, hgone]

end

/-- Settles O45: the ends of frames by `takeCompletion`, TXD by `State.txdPin_eq`. -/
theorem framesComplete : Obligations.FramesComplete := by
  unfold Obligations.FramesComplete
  refine ⟨fun s straps f hrun hf => ?_, by decide, fun s b bit since hrun hbit h => ?_, fun s h => ?_⟩
  · have run {t : State} (h : takeCompletion straps s = t) : exec (.frameCompletion straps) s = .next t :=
      (whenRunning_running hrun).trans (congrArg _ h)
    refine ⟨fun h => run (takeCompletion_before hf h), fun h =>
      ⟨fun hsource => run (takeCompletion_announce hf h hsource), fun hsource => run ?_, fun i hsource hno => run ?_⟩⟩
    · rw [takeCompletion_report hf h hsource]
      unfold reportCompleted
      by_cases hq : s.reportQueue.outstanding = 0
      · rw [if_pos hq]
        exact if_pos hq
      · rw [if_neg hq]
        exact if_neg hq
    · exact takeCompletion_reply hf h hsource (Handler.resetReply_eq_false hno)
  · subst hbit
    rw [State.txdPin_eq hrun h]
    exact ⟨characterLevel_start, fun j hj => characterLevel_data hj, characterLevel_stop b⟩
  · unfold State.txdPin
    rcases h with h | ⟨hframe, htail⟩
    · exact if_pos h
    · simp [hframe, htail]

end Sys2Proof.Machine

/-!
PROOF. Line break (7.4): its detection, its end, and what goes on meanwhile. They settle O43.
-/

namespace Sys2Proof.Machine

/-! ## The parts of a break -/

/-- R133, R140: the receiver and the transmitter at the detection of a break. -/
theorem breakLink_eq (s : State) :
    breakLink s = { s with
      line := { level := s.line.level, char := none, due := none }
      rx := { state := .hunt, held := [], gap := none, broken := true,
              discarded := if s.rx.state = .hunt then s.rx.discarded else raise16 s.rx.discarded }
      tx := { frame := none, announce := none, tail := s.currentByte } } := by
  unfold breakLink
  split <;> rfl

/-- The STATE records of the axes that a break takes from SEEKING, in the order given (R34). -/
def Reports.formBroken (stamp : Word32) (order : List AxisNo) (r : Reports) : Reports :=
  order.foldl (fun r a => r.form stamp (.state a .seeking .free .linkBreak)) r

@[simp] theorem Reports.formBroken_table (stamp : Word32) (order : List AxisNo) (r : Reports) :
    (r.formBroken stamp order).table = r.table := by
  induction order generalizing r with
  | nil => rfl
  | cons a order ih => exact (ih _).trans (Reports.form_table ..)

/-- R34: a SEEKING axis at a break. -/
theorem breakAxis_of_seeking {s : State} {a : AxisNo} (h : (s.axis a).state = .seeking) :
    breakAxis s a = (s.setAxis a { s.axis a with state := .free, homing := none }).formRecord (.state a .seeking .free .linkBreak) := by
  rw [breakAxis, if_pos h, State.changeState, h]

/-- R34: SEEKING axes at a break, one after another. -/
theorem foldl_breakAxis_eq {order : List AxisNo} (hnodup : order.Nodup) {s : State} (hseeking : ∀ a ∈ order, (s.axis a).state = .seeking) :
    ∃ axes, order.foldl breakAxis s = { s with axes := axes, reports := s.reports.formBroken s.timebase order } := by
  induction order generalizing s with
  | nil => exact ⟨s.axes, rfl⟩
  | cons a order ih =>
    obtain ⟨hnew, hnodup⟩ := List.nodup_cons.mp hnodup
    have hrest : ∀ b ∈ order, ((breakAxis s a).axis b).state = .seeking := fun b hb => by
      rw [breakAxis_axis, if_neg (by rintro rfl; exact hnew hb)]
      exact hseeking b (by simp [hb])
    obtain ⟨axes, e⟩ := ih hnodup hrest
    refine ⟨axes, ?_⟩
    rw [List.foldl_cons, e, breakAxis_of_seeking (hseeking a (by simp))]
    rfl

theorem State.mem_seekingAxes {s : State} {a : AxisNo} : a ∈ s.seekingAxes ↔ (s.axis a).state = .seeking := by
  have hmem : a ∈ allAxes := by
    revert a
    decide
  simp [State.seekingAxes, hmem]

theorem State.seekingAxes_nodup (s : State) : s.seekingAxes.Nodup := (show allAxes.Nodup by decide).filter _

/-- R34, R133: the SEEKING axes at a break, with their STATE records in an order that free values choose. -/
theorem breakAxes_eq (s : State) :
    ∃ order axes draws, order.Perm s.seekingAxes
      ∧ breakAxes s = { s with axes := axes, reports := s.reports.formBroken s.timebase order, draws := draws } := by
  have hperm := shuffle_perm s.seekingAxes.length s.draws s.seekingAxes
  obtain ⟨axes, e⟩ := foldl_breakAxis_eq (s := { s with draws := s.draws + s.seekingAxes.length })
    (hperm.nodup_iff.mpr s.seekingAxes_nodup) fun a ha => State.mem_seekingAxes.mp (hperm.mem_iff.mp ha)
  exact ⟨_, axes, _, hperm, e⟩

/-- R170: the session closes, and every entry is PENDING. -/
theorem closeSessionState_eq (s : State) :
    closeSessionState s = { s with
      session := if s.session.state = .closed then s.session
        else { s.session with state := .closed, retries := 0, ackTimer := none }
      reports := if s.session.state = .closed then s.reports else { s.reports with queue := s.reports.queue.revert } } := by
  unfold closeSessionState
  by_cases h : s.session.state = .closed
  · rw [if_pos h, if_pos h, if_pos h]
  · rw [if_neg h, if_neg h, if_neg h]
    rfl

/-! ## The detection of a break -/

/-- R140: with no frame in progress the byte that goes out is the one that did. -/
theorem State.currentByte_none {s : State} (h : s.tx.frame = none) : s.currentByte = s.tx.tail := by
  simp [State.currentByte, h]

/-- R140: the byte of the frame in progress that is being sent goes out. -/
theorem State.currentByte_some {s : State} {f : Sending} {byteTime k : Nat} (h : s.tx.frame = some f)
    (htime : byteTime = 10 * bitPeriods s.straps) (hk : k = (s.clock - f.started) / byteTime) :
    s.currentByte = f.bytes[k]?.map fun b => (b, f.started + k * byteTime) := by
  subst hk htime
  simp only [State.currentByte, h, bytePeriods]
  cases f.bytes[(s.clock - f.started) / (10 * bitPeriods s.straps)]? <;> rfl

/-- R133, R134: RXD has stood at a level for 1 ms. -/
theorem State.rxdHeld_of_held {s : State} {v : Bool} (h : RxdHeld v s) : s.rxdHeld v = true := by
  unfold State.rxdHeld
  split
  · rfl
  · next l since hl =>
    obtain ⟨rfl, hlong⟩ := h l since hl
    simp [Config.periodsPerMilli, hlong]

/-- R133: the detection of a break, part by part. -/
theorem takeBreak_eq {s : State} (hbroken : s.rx.broken = false) (hheld : RxdHeld false s) :
    takeBreak s = closeSessionState (breakAxes ((breakLink s).setHandler Handler.reset)) := by
  rw [takeBreak, if_neg (by simp [hbroken, State.rxdHeld_of_held hheld])]
  rfl

/-- R34: the axes after a break. -/
theorem takeBreak_axis {s : State} (hbroken : s.rx.broken = false) (hheld : RxdHeld false s) (a : AxisNo) :
    (takeBreak s).axis a = if (s.axis a).state = .seeking then { s.axis a with state := .free, homing := none } else s.axis a := by
  rw [takeBreak_eq hbroken hheld, closeSessionState_eq]
  refine (breakAxes_axis _ a).trans ?_
  rw [breakLink_eq]
  rfl

/-- R133: all that a break leaves, with the order of the STATE records. -/
theorem takeBreak_frame {s : State} (hbroken : s.rx.broken = false) (hheld : RxdHeld false s) :
    ∃ order axes draws, order.Perm s.seekingAxes ∧ takeBreak s = { s with
      line := { level := s.line.level, char := none, due := none }
      rx := { state := .hunt, held := [], gap := none, broken := true,
              discarded := if s.rx.state = .hunt then s.rx.discarded else raise16 s.rx.discarded }
      tx := { frame := none, announce := none, tail := s.currentByte }
      handler := Handler.reset, axes := axes, draws := draws
      session := if s.session.state = .closed then s.session
        else { s.session with state := .closed, retries := 0, ackTimer := none }
      reports := if s.session.state = .closed then s.reports.formBroken s.timebase order
        else { s.reports.formBroken s.timebase order with queue := (s.reports.formBroken s.timebase order).queue.revert } } := by
  obtain ⟨order, axes, draws, hperm, e⟩ := breakAxes_eq ((breakLink s).setHandler Handler.reset)
  rw [takeBreak_eq hbroken hheld, e, closeSessionState_eq, breakLink_eq]
  rw [breakLink_eq] at hperm
  exact ⟨order, axes, draws, hperm, rfl⟩

/-- R134: the end of a break. -/
theorem takeBreakEnd_eq {s : State} (hbroken : s.rx.broken = true) (hheld : RxdHeld true s) :
    takeBreakEnd s = { s with rx := { s.rx with broken := false }, tx := { s.tx with announce := some .linkBreak } } :=
  if_pos ⟨hbroken, State.rxdHeld_of_held hheld⟩

/-! ## The statement -/

/-- R133: while the break flag is set nothing comes and nothing is sent. -/
theorem exec_of_broken {s : State} {c : Instr} (hrun : Running s) (hbroken : s.rx.broken = true)
    (h : c = .breakDetected ∨ (∃ b, c = .rxdByte b) ∨ (∃ x y z, c = .requestFrame x y z) ∨ (∃ n, c = .ackFrame n)
      ∨ (∃ n, c = .nakFrame n) ∨ (∃ x y, c = .wrongKindFrame x y) ∨ (∃ x, c = .frameDiscard x) ∨ c = .arbiterChoice) :
    exec c s = .next s := by
  have hframes : s.takesFrames = false := State.takesFrames_eq_false (.inl hbroken)
  rcases h with rfl | ⟨b, rfl⟩ | ⟨tag, code, args, rfl⟩ | ⟨n, rfl⟩ | ⟨n, rfl⟩ | ⟨kind, body, rfl⟩ | ⟨cause, rfl⟩ | rfl
  · exact whenRunning_idle hrun (takeBreak_idle (.inl hbroken))
  · exact whenRunning_idle hrun (takeRxdByte_idle (.inl hbroken))
  · exact whenRunning_idle hrun (takeFrame_idle _ hframes)
  · exact whenRunning_idle hrun (takeFrame_idle _ hframes)
  · exact whenRunning_idle hrun (takeFrame_idle _ hframes)
  · refine whenRunning_idle hrun ?_
    rw [takeFrame_idle _ hframes, ite_self]
  · cases cause with
    | characterError => exact whenRunning_idle hrun (takeDiscard_error_idle (.inl hbroken))
    | damaged held => exact whenRunning_idle hrun (takeDiscard_damaged_idle _ hframes)
  · exact whenRunning_idle hrun (by simp [takeArbiter, hbroken])

/-- Settles O43: by `takeBreak_frame`, `takeBreak_axis`, `takeBreakEnd_eq` and `exec_of_broken`. -/
theorem breaksClearTheLink : Obligations.BreaksClearTheLink := by
  unfold Obligations.BreaksClearTheLink
  refine ⟨fun s hrun hbroken hheld => ⟨takeBreak s, whenRunning_running hrun, ?_⟩,
    fun s hrun hbroken hheld => (whenRunning_running hrun).trans (congrArg _ (takeBreakEnd_eq hbroken hheld)),
    fun s c hrun hbroken h => exec_of_broken hrun hbroken h⟩
  have haxis := takeBreak_axis hbroken hheld
  have hrecords := (Keeps.takeBreak (R := False) (T := False) s).records id
  obtain ⟨order, axes, draws, hperm, e⟩ := takeBreak_frame hbroken hheld
  rw [e] at haxis hrecords ⊢
  refine ⟨rfl, rfl, rfl, rfl, State.currentByte_none, fun f byteTime k => State.currentByte_some, rfl, rfl, haxis,
    ⟨order, _, hperm, rfl, rfl⟩, fun hopen => ?_, hrecords, ?_, rfl⟩
  · simp only [State.reportQueue, if_neg hopen]
    exact ReportQueue.revert_outstanding _
  · dsimp only
    split
    · exact Reports.formBroken_table ..
    · exact Reports.formBroken_table ..

end Sys2Proof.Machine

/-!
PROOF. The request handler (8.1 to 8.5): the acceptance of a REQUEST, and what the completion, the deferral and the ending of a request
leave. They settle O46 and O47.
-/

namespace Sys2Proof.Machine

/-! ## The acceptance of a REQUEST (R143, R144) -/

/-- Log entry 13: the free slot that is taken is the first. -/
theorem Handler.freeSlot_eq_some {h : Handler} {i : SlotNo} (hi : h.slots.get i = .free) (hfirst : ∀ j, j < i → h.slots.get j ≠ .free) :
    h.freeSlot = some i := by
  have hslots : allSlots = List.finRange 10 := by decide
  rw [Handler.freeSlot, hslots, List.find?_eq_some_iff_getElem]
  refine ⟨by simp [hi], i.val, by simp, by simp, fun j hj => ?_⟩
  simpa using hfirst ⟨j, by omega⟩ hj

theorem Handler.freeSlot_eq_none {h : Handler} (hno : ∀ i, h.slots.get i ≠ .free) : h.freeSlot = none :=
  List.find?_eq_none.mpr fun i _ => by simpa using hno i

/-- R144, R145: the start of the oldest queued request is due. -/
theorem Handler.startDue_iff {h : Handler} : h.startDue = true ↔ h.mode = .taking ∧ h.executing = none ∧ h.queue ≠ [] := by
  simp [Handler.startDue, and_assoc]

section
variable {s : State} {tag code : Byte} {args : List Byte}

theorem acceptRequest_resetPending (h : s.handler.mode = .resetPending) : acceptRequest tag code args s = s := by
  simp [acceptRequest, h]

theorem acceptRequest_noSlot (h : s.handler.mode = .taking) (hno : s.handler.freeSlot = none) :
    acceptRequest tag code args s = s.countDiscard := by
  simp [acceptRequest, h, hno]

/-- R143, R144: with a free slot the queue decides, when no start is due or there is room. -/
theorem acceptRequest_slot (h : s.handler.mode = .taking) {i : SlotNo} (hi : s.handler.freeSlot = some i)
    (hdue : ¬ (s.handler.startDue = true ∧ 4 ≤ s.handler.queue.length)) :
    acceptRequest tag code args s = s.setHandler (s.handler.meet i tag code args) := by
  simp only [acceptRequest, h, hi]
  exact if_neg hdue

/-- R144: with the queue full and a start due, a free value says which is taken first (log entry 15). -/
theorem acceptRequest_race (h : s.handler.mode = .taking) {i : SlotNo} (hi : s.handler.freeSlot = some i)
    (hdue : s.handler.startDue = true) (hfull : 4 ≤ s.handler.queue.length) :
    acceptRequest tag code args s = { s with draws := s.draws + 1 }.setHandler
      ((if Config.startFirst s.draws then s.handler.startNext else s.handler).meet i tag code args) := by
  simp only [acceptRequest, h, hi]
  exact if_pos ⟨hdue, hfull⟩

end

/-- R143: a REQUEST that finds room is accepted. -/
theorem Handler.meet_room {h : Handler} (hroom : h.queue.length < 4) (i : SlotNo) (tag code : Byte) (args : List Byte) :
    h.meet i tag code args = (h.accept { tag := tag, code := code, args := args, slot := i }).startNext := if_pos hroom

/-- R144: a REQUEST that finds the queue full is answered at once. -/
theorem Handler.meet_full {h : Handler} (hfull : 4 ≤ h.queue.length) (i : SlotNo) (tag code : Byte) (args : List Byte) :
    h.meet i tag code args = h.complete i { tag := tag, code := code, status := .queueFull, results := [] } :=
  if_neg (Nat.not_lt.mpr hfull)

/-- R128, R166: a good frame leaves the receiver in HUNT and a STALLED session OPEN. -/
theorem hostHeard_toHunt (s : State) :
    hostHeard (s.setRx s.rx.toHunt) = { s with
      rx := { s.rx with state := .hunt, held := [], gap := none }
      session := if s.session.state = .stalled then { s.session with state := .opened, retries := 0 } else s.session } := by
  unfold hostHeard
  by_cases h : s.session.state = .stalled
  · rw [if_pos h]
    exact (if_pos h).trans rfl
  · rw [if_neg h]
    exact (if_neg h).trans rfl

/-- R131, R166: a REQUEST that can come is heard and handed to the handler. -/
theorem exec_requestFrame {s heard : State} {tag code : Byte} {args : List Byte} (hcome : FrameMayCome s)
    (heq : heard = { s with
      rx := { s.rx with state := .hunt, held := [], gap := none }
      session := if s.session.state = .stalled then { s.session with state := .opened, retries := 0 } else s.session }) :
    exec (.requestFrame tag code args) s = .next (acceptRequest tag code args heard) := by
  refine (whenRunning_running hcome.1).trans (congrArg _ ?_)
  rw [takeFrame_of_mayCome hcome, heq, ← hostHeard_toHunt]
  exact routeFrame_request tag code args

/-- R145: with the mode TAKING and none executing, the oldest queued request starts. -/
theorem Handler.startNext_cons {h : Handler} (hmode : h.mode = .taking) (hnone : h.executing = none) {r : Request} {rest : List Request}
    (hqueue : h.queue = r :: rest) : h.startNext = { h with executing := some r, queue := rest } := by
  simp [Handler.startNext, hmode, hnone, hqueue]

theorem Handler.startNext_nil {h : Handler} (hqueue : h.queue = []) : h.startNext = h := by
  rcases h.startNext_cases with e | ⟨_, _, _, _, e, _⟩
  · exact e
  · rw [hqueue] at e
    cases e

theorem Handler.startNext_busy {h : Handler} (hbusy : h.mode = .resetPending ∨ h.executing ≠ none) : h.startNext = h := by
  rcases h.startNext_cases with e | ⟨_, _, hmode, hnone, _, _⟩
  · exact e
  · rcases hbusy with hm | hx
    · rw [hm] at hmode
      cases hmode
    · exact absurd hnone hx

/-- Settles O46: by `acceptRequest` in its cases. -/
theorem requestFramesAreJudged : Obligations.RequestFramesAreJudged := by
  unfold Obligations.RequestFramesAreJudged
  intro s heard tag code args hcome heq
  have hexec := exec_requestFrame (tag := tag) (code := code) (args := args) hcome heq
  have hhandler : heard.handler = s.handler := by rw [heq]
  have hdraws : heard.draws = s.draws := by rw [heq]
  refine ⟨fun hmode => ?_, fun hmode hno => ?_, fun i hmode hi hfirst => ?_⟩
  · rw [hexec, acceptRequest_resetPending (hhandler ▸ hmode)]
  · rw [hexec, acceptRequest_noSlot (hhandler ▸ hmode) (hhandler ▸ Handler.freeSlot_eq_none hno)]
  have hslot : heard.handler.freeSlot = some i := hhandler ▸ Handler.freeSlot_eq_some hi hfirst
  have hheard : heard.handler.mode = .taking := hhandler ▸ hmode
  refine ⟨fun hroom => ?_, fun hfull hbusy => ?_, fun first rest hqueue hrest hnone => ?_⟩
  · rw [hexec, acceptRequest_slot hheard hslot (by rw [hhandler]; omega), hhandler, Handler.meet_room hroom]
    rfl
  · have hdue : ¬ s.handler.startDue = true := fun h => hbusy (Handler.startDue_iff.mp h).2.1
    rw [hexec, acceptRequest_slot hheard hslot (by rw [hhandler]; exact fun h => hdue h.1), hhandler, Handler.meet_full hfull]
    rfl
  · have hfull : s.handler.queue.length = 4 := by rw [hqueue, List.length_cons, hrest]
    have hdue : s.handler.startDue = true := Handler.startDue_iff.mpr ⟨hmode, hnone, by simp [hqueue]⟩
    have hstart := Handler.startNext_cons hmode hnone hqueue
    refine ⟨Config.startFirst s.draws, ?_⟩
    rw [hexec, acceptRequest_race hheard hslot (by rw [hhandler]; exact hdue) (by rw [hhandler, hfull]), hhandler, hdraws]
    cases Config.startFirst s.draws
    · rw [if_neg (by decide), if_neg (by decide), Handler.meet_full (by omega)]
      rfl
    · rw [if_pos rfl, if_pos rfl, hstart, Handler.meet_room (by simp [hrest])]
      exact congrArg _ (congrArg _ (Handler.startNext_busy (.inr (by simp [Handler.accept, Handler.setSlot]))))

/-! ## The end of a request (R145 to R149) -/

section
variable {s : State} {r : Request}

/-- R146: a request that is executing or whose start is due is judged by the handler, and then by its block. -/
theorem executeAs_due {n : RequestName} (act : Request → State → State) (h : s.handler.startNext.executing = some r)
    (hn : requestOf r.code = some n) :
    executeAs n act s = (n.lengthFault r.args).elim (act r s.startRequest) fun st =>
      answer r st (if n = .addMarks ∧ st = .badArgument then [byte8 s.freeCount] else []) s.startRequest := by
  have hexecuting : s.startRequest.handler.executing = some r := h
  rw [executeAs, hexecuting]
  dsimp only
  rw [if_pos hn]
  cases n.lengthFault r.args <;> rfl

theorem unknownRequest_due (h : s.handler.startNext.executing = some r) (hn : requestOf r.code = none) :
    unknownRequest s = answer r .unknownRequest [] s.startRequest := by
  have hexecuting : s.startRequest.handler.executing = some r := h
  rw [unknownRequest, hexecuting]
  exact if_pos hn

/-- R145: the start that is due takes place once. -/
theorem State.startRequest_startRequest (s : State) : s.startRequest.startRequest = s.startRequest :=
  congrArg s.setHandler s.handler.startNext_startNext

end

/-- R149: an entry of the deferred table that alone holds its slot ends. -/
theorem endDeferred_of_table {i : SlotNo} {s : State} {d : Deferred} {before after : List Deferred}
    (htable : s.handler.table = before ++ d :: after) (hslot : d.slot = i) (honly : ∀ x ∈ before ++ after, x.slot ≠ i)
    (st : Status) (results : List Byte) :
    endDeferred i st results s = { s with handler :=
      { s.handler with
        slots := s.handler.slots.set i.val
          (.completed { tag := d.tag, code := d.code, status := st, results := results }) i.isLt
        order := s.handler.order ++ [i]
        table := before ++ after } } := by
  have hbefore : ∀ x ∈ before, x.slot ≠ i := fun x hx => honly x (List.mem_append_left _ hx)
  have hafter : ∀ x ∈ after, x.slot ≠ i := fun x hx => honly x (List.mem_append_right _ hx)
  have hfind : s.handler.table.find? (fun d => d.slot == i) = some d := by
    rw [htable, List.find?_append, List.find?_eq_none.mpr (by simpa using hbefore)]
    simp [hslot]
  have hdrop : (s.handler.dropEntry i).table = before ++ after := by
    rw [Handler.dropEntry_table, htable, List.filter_append, List.filter_cons_of_neg (by simp [hslot]),
      List.filter_eq_self.mpr (by simpa using hbefore), List.filter_eq_self.mpr (by simpa using hafter)]
  rw [endDeferred, hfind, ← hdrop]
  rfl

theorem endDeferred_of_no_entry {i : SlotNo} {s : State} (hno : ∀ x ∈ s.handler.table, x.slot ≠ i) (st : Status) (results : List Byte) :
    endDeferred i st results s = s := by
  rw [endDeferred, List.find?_eq_none.mpr (by simpa using hno)]

/-- Settles O47: by `Handler.startNext`, `executeAs_due` and `endDeferred_of_table`. -/
theorem repliesAreCompleted : Obligations.RepliesAreCompleted := by
  unfold Obligations.RepliesAreCompleted
  refine ⟨fun h hmode hnone => ⟨Handler.startNext_nil, fun r rest => Handler.startNext_cons hmode hnone⟩,
    fun h => Handler.startNext_busy, fun s r hrun hr => ⟨fun n hn => ?_, fun hn => ?_⟩, fun r st results s => rfl,
    fun r kind s => rfl, fun i st results s d before after htable hslot honly => endDeferred_of_table htable hslot honly st results,
    fun i st results s hno => endDeferred_of_no_entry hno st results⟩
  · have hr' : s.startRequest.handler.startNext.executing = some r := by
      rw [show s.startRequest.handler.startNext = s.handler.startNext from s.handler.startNext_startNext, hr]
    obtain ⟨act, e⟩ := n.exec_command
    rw [e, e, whenRunning_running hrun, whenRunning_running (s := s.setHandler s.handler.startNext) hrun,
      executeAs_due act hr hn]
    refine congrArg _ ((executeAs_due act hr' hn).trans ?_).symm
    rw [s.startRequest_startRequest]
    rfl
  · have hr' : s.startRequest.handler.startNext.executing = some r := by
      rw [show s.startRequest.handler.startNext = s.handler.startNext from s.handler.startNext_startNext, hr]
    refine (whenRunning_running hrun).trans (Eq.trans (congrArg _ ?_) (whenRunning_running (s := s.setHandler s.handler.startNext) hrun).symm)
    rw [unknownRequest_due hr hn]
    refine ((unknownRequest_due hr' hn).trans ?_).symm
    rw [s.startRequest_startRequest]

end Sys2Proof.Machine

/-!
PROOF. What every request comes to when it is executed (8.3, 8.4): an answer, which changes nothing else when it refuses the request, a
deferral, or a wait. They settle O48 and O49.
-/

namespace Sys2Proof.Machine

/-! ## What an executed request comes to -/

/-- Request `r` of code `n`, executed in state `s`, is answered, the state as it was when the status refuses it; or deferred, when it is a
HOME or a DRAIN; or it waits for what the axis it names has to take (log entry 29). -/
inductive RequestName.Judged (n : RequestName) (r : Request) (s : State) : State → Prop where
  | answered (st : Status) (results : List Byte) (u : State) (h : st.refuses = true → u = s) : n.Judged r s (answer r st results u)
  | deferred (kind : DeferredKind) (u : State) (h : n = .home ∨ n = .drain) : n.Judged r s (deferRequest r kind u)
  | waiting (a : AxisNo) (ha : (arg8 r.args 0).toNat = a.val)
      (h : (n = .queryAxis ∧ (s.decoder a).results ≠ [])
        ∨ ((n = .configureAxis ∨ n = .enableAxis ∨ n = .setPosition) ∧ (s.axis a).arrival.isSome)) : n.Judged r s s

section
variable {n : RequestName} {r : Request} {s : State}

/-- R146: the handler's own checks refuse, and leave the rest to the block. -/
theorem RequestName.Judged.executeAs {act : Request → State → State} (hex : s.handler.executing = some r) (hn : requestOf r.code = some n)
    (hact : n.Judged r s (act r s)) : n.Judged r s (executeAs n act s) := by
  rw [executeAs_due act (by rw [Handler.startNext_executing hex, hex]) hn, State.startRequest_executing hex]
  cases n.lengthFault r.args with
  | none => exact hact
  | some st => exact .answered _ _ _ fun _ => rfl

/-- R146: a request that names no axis that exists is refused. -/
theorem RequestName.Judged.executeOnAxis {act : AxisNo → Request → State → State} (hex : s.handler.executing = some r)
    (hn : requestOf r.code = some n) (hact : ∀ a : AxisNo, (arg8 r.args 0).toNat = a.val → n.Judged r s (act a r s)) :
    n.Judged r s (executeOnAxis n act s) := by
  refine .executeAs hex hn ?_
  cases ha : axisOf (arg8 r.args 0) with
  | none => exact .answered _ _ _ fun _ => rfl
  | some a => exact hact a (axisOf_eq_some.mp ha)

/-! ## The axis requests -/

/-- R48: a request that may move the position waits for an arrival. -/
theorem RequestName.Judged.afterArrival {act : AxisNo → Request → State → State} {a : AxisNo} (ha : (arg8 r.args 0).toNat = a.val)
    (hn : n = .configureAxis ∨ n = .enableAxis ∨ n = .setPosition) (hact : n.Judged r s (act a r s)) :
    n.Judged r s (afterArrival act a r s) := by
  unfold Machine.afterArrival
  split
  · next h => exact .waiting a ha (.inr ⟨hn, h⟩)
  · exact hact

/-- R41: a request that reads an axis with its decoder waits for the results. -/
theorem RequestName.Judged.afterResults {act : AxisNo → Request → State → State} {a : AxisNo} (ha : (arg8 r.args 0).toNat = a.val)
    (hn : n = .queryAxis) (hact : n.Judged r s (act a r s)) : n.Judged r s (afterResults act a r s) := by
  unfold Machine.afterResults
  split
  · next h => exact .waiting a ha (.inl ⟨hn, h⟩)
  · exact hact

variable (a : AxisNo)

theorem configureAxis_isJudged : n.Judged r s (configureAxis a r s) := by
  unfold configureAxis
  dsimp only
  repeat' split
  all_goals exact .answered _ _ _ (by simp [Status.refuses])

theorem enableAxis_isJudged : n.Judged r s (enableAxis a r s) := by
  unfold enableAxis
  dsimp only
  repeat' split
  all_goals exact .answered _ _ _ (by simp [Status.refuses])

theorem disableAxis_isJudged : n.Judged r s (disableAxis a r s) := by
  unfold disableAxis
  dsimp only
  split
  · exact .answered _ _ _ fun _ => rfl
  · exact .answered _ _ _ (by simp [Status.refuses])

theorem clearFault_isJudged : n.Judged r s (clearFault a r s) := by
  unfold clearFault
  dsimp only
  split
  · exact .answered _ _ _ fun _ => rfl
  · exact .answered _ _ _ (by simp [Status.refuses])

theorem setPosition_isJudged : n.Judged r s (setPosition a r s) := by
  unfold setPosition
  dsimp only
  repeat' split
  all_goals exact .answered _ _ _ (by simp [Status.refuses])

theorem queryAxis_isJudged : n.Judged r s (queryAxis a r s) := .answered _ _ _ (by simp [Status.refuses])

theorem home_isJudged (hn : n = .home) : n.Judged r s (home a r s) := by
  unfold home
  dsimp only
  split
  · exact .answered _ _ _ fun _ => rfl
  split
  · exact .answered _ _ _ fun _ => rfl
  split
  · exact .answered _ _ _ fun _ => rfl
  split
  · exact .answered _ _ _ fun _ => rfl
  · exact .deferred _ _ (.inl hn)

/-! ## The mark requests -/

theorem addMarks_isJudged : n.Judged r s (addMarks r s) := by
  unfold addMarks
  dsimp only
  repeat' split
  all_goals exact .answered _ _ _ (by simp [Status.refuses])

theorem removeMarks_isJudged : n.Judged r s (removeMarks r s) := by
  unfold removeMarks
  split
  · exact .answered _ _ _ (by simp [Status.refuses])
  · exact .answered _ _ _ fun _ => rfl

theorem releaseMarks_isJudged : n.Judged r s (releaseMarks r s) := by
  unfold releaseMarks
  split
  · exact .answered _ _ _ fun _ => rfl
  · exact .answered _ _ _ (by simp [Status.refuses])

theorem listMarks_isJudged : n.Judged r s (listMarks r s) := by
  unfold listMarks
  dsimp only
  repeat' split
  all_goals exact .answered _ _ _ fun _ => rfl

/-! ## The requests of the lines -/

theorem configureOutput_isJudged : n.Judged r s (configureOutput r s) := by
  unfold configureOutput
  repeat' split
  all_goals exact .answered _ _ _ (by simp [Status.refuses])

/-- R71: a refused pulse claim leaves the line as it was. -/
theorem State.claimPulse_refused {k : TriggerNo} (h : (s.claimPulse k).2 = false) : (s.claimPulse k).1 = s := by
  have hline : ∀ (l : OutputLine) (stop : Nat), (l.claim stop).2 = false → (l.claim stop).1 = l := by
    intro l stop hl
    unfold OutputLine.claim at hl ⊢
    repeat' split at hl
    all_goals simp_all
  have hsame := hline (s.output k) (s.afterMicros (s.output k).width) h
  rw [State.claimPulse]
  dsimp only
  rw [hsame, State.setOutput_self]

theorem pulseOutput_isJudged : n.Judged r s (pulseOutput r s) := by
  unfold pulseOutput
  split
  · exact .answered _ _ _ fun _ => rfl
  · refine .answered _ _ _ fun h => State.claimPulse_refused ?_
    by_contra htaken
    rw [Bool.not_eq_false] at htaken
    rw [if_pos htaken] at h
    cases h

theorem configureCapture_isJudged : n.Judged r s (configureCapture r s) := by
  unfold configureCapture
  repeat' split
  all_goals exact .answered _ _ _ (by simp [Status.refuses])

/-! ## The requests of the filter table and the tally units -/

theorem setFilter_isJudged : n.Judged r s (setFilter r s) := by
  unfold setFilter
  split
  · exact .answered _ _ _ (by simp [Status.refuses])
  · exact .answered _ _ _ fun _ => rfl

theorem readFilter_isJudged : n.Judged r s (readFilter r s) := by
  unfold readFilter
  split
  · exact .answered _ _ _ fun _ => rfl
  · exact .answered _ _ _ fun _ => rfl

theorem configureTally_isJudged : n.Judged r s (configureTally r s) := by
  unfold configureTally
  dsimp only
  repeat' split
  all_goals exact .answered _ _ _ (by simp [Status.refuses])

theorem readTally_isJudged : n.Judged r s (readTally r s) := by
  unfold readTally
  split
  · exact .answered _ _ _ (by simp [Status.refuses])
  · exact .answered _ _ _ fun _ => rfl

/-! ## The session and general requests -/

theorem openSession_isJudged : n.Judged r s (openSession r s) := by
  unfold openSession
  dsimp only
  split
  · exact .answered _ _ _ fun _ => rfl
  split
  · exact .answered _ _ _ fun _ => rfl
  split
  · exact .answered _ _ _ (by simp [Status.refuses])
  · exact .answered _ _ _ fun _ => rfl

theorem closeSession_isJudged : n.Judged r s (closeSession r s) := by
  unfold closeSession
  split
  · exact .answered _ _ _ fun _ => rfl
  · exact .answered _ _ _ (by simp [Status.refuses])

theorem drain_isJudged (hn : n = .drain) : n.Judged r s (drain r s) := by
  unfold drain
  dsimp only
  split
  · exact .answered _ _ _ fun _ => rfl
  split
  · exact .answered _ _ _ fun _ => rfl
  split
  · exact .answered _ _ _ fun _ => rfl
  split
  · exact .answered _ _ _ fun _ => rfl
  · exact .deferred _ _ (.inr hn)

theorem status_isJudged : n.Judged r s (status r s) := by
  unfold status
  split
  · exact .answered _ _ _ fun _ => rfl
  · exact .answered _ _ _ (by simp [Status.refuses])

theorem abort_isJudged : n.Judged r s (abort r s) := by
  unfold abort
  dsimp only
  split
  · exact .answered _ _ _ fun _ => rfl
  · exact .answered _ _ _ (by simp [Status.refuses])

theorem resetDevice_isJudged : n.Judged r s (resetDevice r s) := .answered _ _ _ (by simp [Status.refuses])

/-! ## Every request -/

/-- R145, R146: what the command that executes a request comes to. -/
theorem exec_isJudged {t : State} (hrun : Running s) (hex : s.handler.executing = some r) (hn : requestOf r.code = some n)
    (h : exec n.command s = .next t) : n.Judged r s t := by
  have block {act : Request → State → State} (e : whenRunning (executeAs n act) s = .next t) (hact : n.Judged r s (act r s)) :
      n.Judged r s t := by
    rw [whenRunning_running hrun] at e
    exact Host.Outcome.next.inj e ▸ .executeAs hex hn hact
  have onAxis {act : AxisNo → Request → State → State} (e : whenRunning (executeOnAxis n act) s = .next t)
      (hact : ∀ a : AxisNo, (arg8 r.args 0).toNat = a.val → n.Judged r s (act a r s)) : n.Judged r s t := by
    rw [whenRunning_running hrun] at e
    exact Host.Outcome.next.inj e ▸ .executeOnAxis hex hn hact
  cases n with
  | identify => exact block h (.answered _ _ _ fun _ => rfl)
  | status => exact block h status_isJudged
  | time => exact block h (.answered _ _ _ fun _ => rfl)
  | configureAxis => exact onAxis h fun a ha => .afterArrival ha (.inl rfl) (configureAxis_isJudged a)
  | enableAxis => exact onAxis h fun a ha => .afterArrival ha (.inr (.inl rfl)) (enableAxis_isJudged a)
  | disableAxis => exact onAxis h fun a _ => disableAxis_isJudged a
  | clearFault => exact onAxis h fun a _ => clearFault_isJudged a
  | setPosition => exact onAxis h fun a ha => .afterArrival ha (.inr (.inr rfl)) (setPosition_isJudged a)
  | queryAxis => exact onAxis h fun a ha => .afterResults ha rfl (queryAxis_isJudged a)
  | home => exact onAxis h fun a _ => home_isJudged a rfl
  | addMarks => exact block h addMarks_isJudged
  | removeMarks => exact block h removeMarks_isJudged
  | releaseMarks => exact block h releaseMarks_isJudged
  | listMarks => exact block h listMarks_isJudged
  | configureOutput => exact block h configureOutput_isJudged
  | pulseOutput => exact block h pulseOutput_isJudged
  | configureCapture => exact block h configureCapture_isJudged
  | setFilter => exact block h setFilter_isJudged
  | readFilter => exact block h readFilter_isJudged
  | configureTally => exact block h configureTally_isJudged
  | readTally => exact block h readTally_isJudged
  | openSession => exact block h openSession_isJudged
  | closeSession => exact block h closeSession_isJudged
  | drain => exact block h (drain_isJudged rfl)
  | abort => exact block h abort_isJudged
  | resetDevice => exact block h resetDevice_isJudged

end

/-- R147: the slot of an answered request. -/
theorem answer_slot (r : Request) (st : Status) (results : List Byte) (s : State) :
    (answer r st results s).handler.slots.get r.slot =
      .completed { tag := r.tag, code := r.code, status := st, results := results } :=
  Vector.getElem_set_self ..

/-- R148: the slot of a deferred request. -/
theorem deferRequest_slot (r : Request) (kind : DeferredKind) (s : State) :
    (deferRequest r kind s).handler.slots.get r.slot = .deferred r.tag r.code :=
  Vector.getElem_set_self ..

/-- Settles O48: by `exec_isJudged`. -/
theorem everyRequestIsAnsweredOrDeferred : Obligations.EveryRequestIsAnsweredOrDeferred := by
  unfold Obligations.EveryRequestIsAnsweredOrDeferred
  intro n r s t hrun hex hn h
  cases exec_isJudged hrun hex hn h with
  | answered st results u _ => exact .inl ⟨st, results, answer_slot ..⟩
  | deferred kind u hkind =>
    exact .inr (.inl ⟨hkind, deferRequest_slot .., _, List.mem_append_right _ (List.mem_singleton_self _), rfl, rfl, rfl⟩)
  | waiting a ha hwait => exact .inr (.inr ⟨rfl, a, ha, hwait⟩)

/-- Settles O49: by `exec_isJudged`. -/
theorem refusedRequestsChangeNothing : Obligations.RefusedRequestsChangeNothing := by
  unfold Obligations.RefusedRequestsChangeNothing
  intro n r s t reply hrun hex hreserved hn h hreply hrefuses
  cases exec_isJudged hrun hex hn h with
  | answered st results u hu =>
    rw [answer_slot] at hreply
    obtain rfl := Slot.completed.inj hreply
    rw [hu hrefuses]
  | deferred kind u _ =>
    rw [deferRequest_slot] at hreply
    cases hreply
  | waiting a _ _ =>
    rw [hreserved] at hreply
    cases hreply

end Sys2Proof.Machine

/-!
PROOF. The handler's own checks (8.3): the request codes, and the length check by the layouts of the arguments (10.5, 10.6). They settle
O50.
-/

namespace Sys2Proof.Machine

/-! ## The codes of the requests (10.5) -/

/-- A request is the one its code names. -/
theorem requestOf_code (n : RequestName) : requestOf n.code = some n := by
  cases n <;> decide

theorem requestOf_eq_some {code : Byte} {n : RequestName} : requestOf code = some n ↔ n.code = code := by
  refine ⟨fun h => ?_, fun h => h ▸ requestOf_code n⟩
  simpa using List.find?_some h

theorem mem_allRequests (n : RequestName) : n ∈ allRequests := by
  cases n <;> decide

/-- 10.5: the requests with their codes. -/
theorem mem_requestCodes {code : Byte} {n : RequestName} : (code, n) ∈ allRequests.map (fun n => (n.code, n)) ↔ n.code = code := by
  rw [List.mem_map]
  refine ⟨?_, fun h => ⟨n, mem_allRequests n, by rw [h]⟩⟩
  rintro ⟨m, -, hm⟩
  obtain ⟨hcode, rfl⟩ := Prod.mk.inj hm
  exact hcode

/-! ## What a layout reads -/

/-- What the length check makes of a walk (R172). -/
def Walk.fault : Walk → Option Status
  | .stopped st => some st
  | .going [] => none
  | .going (_ :: _) => some .badLength

theorem RequestName.lengthFault_eq (n : RequestName) (args : List Byte) : n.lengthFault args = (n.layout.walk args).fault := by
  unfold RequestName.lengthFault
  rcases n.layout.walk args with (_ | _) | _ <;> rfl

/-- The length check when some of the bytes are left. -/
theorem Walk.fault_going (rest : List Byte) : (Walk.going rest).fault = if rest = [] then none else some .badLength := by
  cases rest <;> rfl

/-- A walk reads the bytes `l`: it goes past them, and it stops when they are cut short (R172). -/
structure Reads (walk : List Byte → Walk) (l : List Byte) : Prop where
  past : ∀ rest, walk (l ++ rest) = .going rest
  short : ∀ k, k < l.length → walk (l.take k) = .stopped .badLength

/-- R172: a field of a fixed size reads bytes of its size. -/
theorem Reads.fixed {l : List Byte} {n : Nat} (h : l.length = n) : Reads (walkItem (.fixed n)) l where
  past rest := by
    rw [walkItem, if_neg (by simp [h]), ← h, List.drop_left]
  short k hk := by
    rw [walkItem, if_pos (by rw [List.length_take]; omega)]

/-- R173: what follows the presence byte of a field that is present is walked as that field. -/
theorem walkItem_present (n : Nat) (l : List Byte) : walkItem (.optional n) (1 :: l) = walkItem (.fixed n) l :=
  by simp [walkItem]

/-- R173: an absent field is its presence byte alone. -/
theorem walkItem_absent (n : Nat) (l : List Byte) : walkItem (.optional n) (0 :: l) = .going l := by
  simp [walkItem]

/-- R173: a presence byte that is neither 0 nor 1. -/
theorem walkItem_badPresence (n : Nat) {p : Byte} (hp : 1 < p.toNat) (l : List Byte) :
    walkItem (.optional n) (p :: l) = .stopped .badArgument := by
  rw [walkItem, if_neg (by rintro rfl; exact absurd hp (by decide)), if_neg (by rintro rfl; exact absurd hp (by decide))]

/-- R173: an optional field reads its presence byte and, when that is 1, bytes of its size. -/
theorem Reads.optional {f : Option (List Byte)} {n : Nat} (h : ∀ l ∈ f, l.length = n) :
    Reads (walkItem (.optional n)) (optionalBytes f) := by
  cases f with
  | none =>
    refine ⟨walkItem_absent n, fun k hk => ?_⟩
    obtain rfl : k = 0 := by simpa [optionalBytes] using hk
    rfl
  | some l =>
    have hl : Reads (walkItem (.fixed n)) l := .fixed (h l rfl)
    refine ⟨fun rest => (walkItem_present n _).trans (hl.past rest), fun k hk => ?_⟩
    cases k with
    | zero => rfl
    | succ k => exact (walkItem_present n _).trans (hl.short k (by simpa [optionalBytes] using hk))

/-- A walk that goes on with the bytes left. -/
def Walk.andThen (w : Walk) (next : List Byte → Walk) : Walk :=
  match w with
  | .going rest => next rest
  | .stopped st => .stopped st

theorem walkItems_cons (i : Item) (is : List Item) (l : List Byte) : walkItems (i :: is) l = (walkItem i l).andThen (walkItems is) := by
  rw [walkItems]
  cases walkItem i l <;> rfl

theorem walkItems_append (is js : List Item) (l : List Byte) : walkItems (is ++ js) l = (walkItems is l).andThen (walkItems js) := by
  induction is generalizing l with
  | nil => rfl
  | cons i is ih =>
    rw [List.cons_append, walkItems_cons, walkItems_cons]
    cases walkItem i l with
    | going rest => exact ih rest
    | stopped st => rfl

/-- Walks that read what they go past, one after the other. -/
theorem Reads.andThen {first second : List Byte → Walk} {l m : List Byte} (hl : Reads first l) (hm : Reads second m) :
    Reads (fun x => (first x).andThen second) (l ++ m) where
  past rest := by
    rw [List.append_assoc, hl.past]
    exact hm.past rest
  short k hk := by
    rw [List.take_append]
    by_cases hlt : k < l.length
    · rw [Nat.sub_eq_zero_of_le (Nat.le_of_lt hlt), List.take_zero, List.append_nil, hl.short k hlt]
      rfl
    · rw [List.take_of_length_le (Nat.not_lt.mp hlt), hl.past]
      exact hm.short _ (by rw [List.length_append] at hk; omega)

theorem Reads.nil : Reads (walkItems []) [] := ⟨fun _ => rfl, fun k hk => absurd hk (by simp)⟩

/-- Parts read one after another. -/
theorem Reads.cons {i : Item} {is : List Item} {l m : List Byte} (hl : Reads (walkItem i) l) (hm : Reads (walkItems is) m) :
    Reads (walkItems (i :: is)) (l ++ m) := by
  rw [show walkItems (i :: is) = fun x => (walkItem i x).andThen (walkItems is) from funext (walkItems_cons i is)]
  exact hl.andThen hm

theorem Reads.append {is js : List Item} {l m : List Byte} (hl : Reads (walkItems is) l) (hm : Reads (walkItems js) m) :
    Reads (walkItems (is ++ js)) (l ++ m) := by
  rw [show walkItems (is ++ js) = fun x => (walkItems is x).andThen (walkItems js) from funext (walkItems_append is js)]
  exact hl.andThen hm

/-- Optional fields read one after another. -/
theorem Reads.optionals {fields : List (Option (List Byte))} {sizes : List Nat}
    (h : List.Forall₂ (fun f n => ∀ l ∈ f, l.length = n) fields sizes) :
    Reads (walkItems (sizes.map Item.optional)) (fields.flatMap optionalBytes) := by
  induction h with
  | nil => exact .nil
  | cons hf _ ih => exact .cons (.optional hf) ih

/-! ## The layouts without a count (R172, R173) -/

theorem lengthFault_plain {n : RequestName} {items : List Item} (h : n.layout = .plain items) (args : List Byte) :
    n.lengthFault args = (walkItems items args).fault := by
  rw [n.lengthFault_eq, h]
  rfl

/-- R172: a last field of a fixed size. -/
theorem fault_fixed (k : Nat) (l : List Byte) :
    (walkItems [.fixed k] l).fault = if l.length = k then none else some .badLength := by
  rw [walkItems_cons, walkItem]
  by_cases hlt : l.length < k
  · rw [if_pos hlt, if_neg (by omega)]
    rfl
  · rw [if_neg hlt]
    refine (Walk.fault_going _).trans (if_congr ?_ rfl rfl)
    rw [List.drop_eq_nil_iff]
    omega

/-- R173: a last field that is optional. -/
theorem fault_optional (m : Nat) (p : Byte) (l : List Byte) :
    (walkItems [.optional m] (p :: l)).fault =
      if 1 < p.toNat then some .badArgument else if l.length = p.toNat * m then none else some .badLength := by
  rw [walkItems_cons]
  by_cases hbad : 1 < p.toNat
  · rw [if_pos hbad, walkItem_badPresence m hbad]
    rfl
  rw [if_neg hbad]
  have hpresence : ∀ q : Byte, ¬ 1 < q.toNat → q = 0 ∨ q = 1 := by decide
  obtain rfl | rfl := hpresence p hbad
  · rw [walkItem_absent]
    refine (Walk.fault_going l).trans (if_congr ?_ rfl rfl)
    simp
  · rw [walkItem_present, ← walkItems_cons, fault_fixed]
    simp

/-- R172: the arguments of a request without an optional field have one length. -/
theorem lengthFault_fixed {n : RequestName} {k : Nat} (h : n.layout = .plain [.fixed k] ∨ (n.layout = .plain [] ∧ k = 0))
    (args : List Byte) : n.lengthFault args = if args.length = k then none else some .badLength := by
  rcases h with h | ⟨h, rfl⟩
  · rw [lengthFault_plain h, fault_fixed]
  · rw [lengthFault_plain h]
    exact (Walk.fault_going _).trans (if_congr List.length_eq_zero_iff.symm rfl rfl)

/-- R173: the arguments of a request that ends in an optional field. -/
theorem lengthFault_optional {n : RequestName} {k m : Nat} (h : n.layout = .plain [.fixed k, .optional m]) (args : List Byte) :
    n.lengthFault args =
      if args.length ≤ k then some .badLength
      else if 1 < (arg8 args k).toNat then some .badArgument
      else if args.length = k + 1 + (arg8 args k).toNat * m then none else some .badLength := by
  rw [lengthFault_plain h, walkItems_cons, walkItem]
  by_cases hlt : args.length < k
  · rw [if_pos hlt, if_pos (Nat.le_of_lt hlt)]
    rfl
  rw [if_neg hlt]
  by_cases hk : args.length = k
  · rw [if_pos (Nat.le_of_eq hk), List.drop_of_length_le (Nat.le_of_eq hk)]
    rfl
  have hlong : k < args.length := by omega
  have hbyte : arg8 args k = args[k] := by
    rw [arg8, List.getD_eq_getElem?_getD, List.getElem?_eq_getElem hlong]
    rfl
  rw [if_neg (by omega), List.drop_eq_getElem_cons hlong, hbyte]
  refine (fault_optional m args[k] _).trans (if_congr Iff.rfl rfl (if_congr ?_ rfl rfl))
  rw [List.length_drop]
  omega

/-! ## ADD_MARKS (10.6) -/

/-- 10.6: the optional fields of a mark entry, by their sizes. -/
theorem markLayout_eq : markLayout = .fixed 7 :: ([2, 4, 1, 1, 3].map Item.optional ++ [.fixed 1]) := rfl

theorem addMarks_short {args : List Byte} (h : args.length < 3) : RequestName.addMarks.lengthFault args = some .badLength := by
  rcases args with _ | ⟨a, _ | ⟨b, _ | ⟨c, rest⟩⟩⟩
  · rfl
  · rfl
  · rfl
  · simp only [List.length_cons] at h
    omega

/-- 10.6: the marks follow the axis, the arm state and their number. -/
theorem addMarks_fault (a b n : Byte) (rest : List Byte) :
    RequestName.addMarks.lengthFault (a :: b :: n :: rest) = (walkElements markLayout n.toNat rest).fault := by
  rw [RequestName.lengthFault_eq]
  have head : walkItems [.fixed 2] (a :: b :: n :: rest) = .going (n :: rest) :=
    (Reads.fixed (l := [a, b]) rfl).cons .nil |>.past (n :: rest)
  simp [RequestName.layout, Layout.walk, head]

/-- 10.6: one mark entry more. -/
theorem addMarks_fault_succ (a b : Byte) {n : Byte} (hn : n ≠ 0) (rest : List Byte) :
    RequestName.addMarks.lengthFault (a :: b :: n :: rest) =
      ((walkItems markLayout rest).andThen (walkElements markLayout (n - 1).toNat)).fault := by
  obtain ⟨k, hk⟩ : ∃ k, n.toNat = k + 1 := ⟨n.toNat - 1, by
    have : n.toNat ≠ 0 := fun h => hn (BitVec.eq_of_toNat_eq h)
    omega⟩
  have hpred : (n - 1).toNat = k := by
    rw [BitVec.toNat_sub_of_le (by rw [BitVec.le_def]; simp; omega)]
    simp [hk]
  rw [addMarks_fault, hk, hpred, walkElements]
  cases walkItems markLayout rest <;> rfl

section
variable {head : List Byte} {fields : List (Option (List Byte))}

/-- 10.6: the bytes of a mark entry. -/
theorem reads_markEntry (hhead : head.length = 7) (hfields : List.Forall₂ (fun f n => ∀ l ∈ f, l.length = n) fields [2, 4, 1, 1, 3])
    (report : Byte) : Reads (walkItems markLayout) (head ++ fields.flatMap optionalBytes ++ [report]) := by
  rw [markLayout_eq, List.append_assoc, show [report] = [report] ++ [] from rfl]
  exact .cons (.fixed hhead) (.append (.optionals hfields) (.cons (.fixed rfl) .nil))

/-- R173: a mark entry whose `j`-th optional field has a bad presence byte. -/
theorem walkItems_markEntry_badPresence (hhead : head.length = 7)
    (hfields : List.Forall₂ (fun f n => ∀ l ∈ f, l.length = n) fields [2, 4, 1, 1, 3]) {j : Nat} (hj : j < 5) {presence : Byte}
    (hpresence : 1 < presence.toNat) (rest : List Byte) :
    walkItems markLayout (head ++ (fields.take j).flatMap optionalBytes ++ presence :: rest) = .stopped .badArgument := by
  have hsplit : [2, 4, 1, 1, 3] = [2, 4, 1, 1, 3].take j ++ [2, 4, 1, 1, 3].drop j := (List.take_append_drop ..).symm
  obtain ⟨size, more, hmore⟩ : ∃ size more, [2, 4, 1, 1, 3].drop j = size :: more := List.exists_cons_of_ne_nil (by simp; omega)
  have hread : Reads (walkItems (.fixed 7 :: ([2, 4, 1, 1, 3].take j).map Item.optional))
      (head ++ (fields.take j).flatMap optionalBytes) :=
    .cons (.fixed hhead) (.optionals (List.forall₂_take j hfields))
  rw [markLayout_eq, hsplit, hmore, List.map_append, List.append_assoc, ← List.cons_append, walkItems_append, hread.past]
  refine (walkItems_cons ..).trans ?_
  rw [walkItem_badPresence _ hpresence]
  rfl

end

/-! ## The axis check (R146, check 3) -/

theorem exec_badAxis {n : RequestName} {r : Request} {s : State} (hex : Executing n r s) (haxis : 3 < (arg8 r.args 0).toNat)
    (act : AxisNo → Request → State → State) : whenRunning (executeOnAxis n act) s = .next (answer r .badArgument [] s) := by
  rw [whenRunning_running hex.1, executeOnAxis, executeAs_executing _ hex, axisOf_eq_none.mpr haxis]

/-- R172, R173: the length check refuses a request. -/
theorem exec_lengthFault {n : RequestName} {r : Request} {s : State} (hrun : Running s) (hex : s.handler.executing = some r)
    (hn : requestOf r.code = some n) {st : Status} (hfault : n.lengthFault r.args = some st) :
    exec n.command s = .next (answer r st (if n = .addMarks ∧ st = .badArgument then [byte8 s.freeCount] else []) s) := by
  obtain ⟨act, e⟩ := n.exec_command
  rw [e, whenRunning_running hrun, executeAs_due act (by rw [Handler.startNext_executing hex, hex]) hn, hfault,
    State.startRequest_executing hex]
  rfl

/-- Settles O50: by `requestOf_eq_some`, `exec_lengthFault`, `exec_badAxis` and the walks of the layouts. -/
theorem theHandlerJudgesFirst : Obligations.TheHandlerJudgesFirst := by
  unfold Obligations.TheHandlerJudgesFirst
  refine ⟨fun s r hrun hex => ⟨fun hn => ?_, fun n hn => ⟨fun h => ?_, fun h => ?_, fun h hmem haxis => ?_⟩⟩,
    fun code n => ?_, ?_, ?_, fun args => addMarks_short, fun a b rest => ?_, ?_⟩
  · refine (whenRunning_running hrun).trans (congrArg _ ?_)
    rw [unknownRequest_due (by rw [Handler.startNext_executing hex, hex]) hn, State.startRequest_executing hex]
  · rw [exec_lengthFault hrun hex hn h, if_neg (by simp)]
  · rw [exec_lengthFault hrun hex hn h]
    simp
  · have hexecuting : Executing n r s := ⟨hrun, hex, hn, h⟩
    simp only [List.mem_cons, List.not_mem_nil, or_false] at hmem
    rcases hmem with rfl | rfl | rfl | rfl | rfl | rfl | rfl <;> exact exec_badAxis hexecuting haxis _
  · exact requestOf_eq_some.trans mem_requestCodes.symm
  · have hlayouts : ∀ x ∈ [(RequestName.identify, 0), (.status, 1), (.time, 0), (.configureAxis, 24), (.enableAxis, 5),
        (.disableAxis, 1), (.clearFault, 1), (.setPosition, 6), (.queryAxis, 1), (.home, 2), (.removeMarks, 6), (.releaseMarks, 5),
        (.listMarks, 3), (.configureOutput, 6), (.pulseOutput, 1), (.readFilter, 1), (.configureTally, 8), (.readTally, 2),
        (.openSession, 5), (.closeSession, 0), (.drain, 2), (.abort, 1), (.resetDevice, 0)],
        x.1.layout = .plain [.fixed x.2] ∨ (x.1.layout = .plain [] ∧ x.2 = 0) := by
      decide
    exact fun x hx args => lengthFault_fixed (hlayouts x hx) args
  · have hlayouts : ∀ x ∈ [(RequestName.configureCapture, 6, 3), (.setFilter, 11, 1)],
        x.1.layout = .plain [.fixed x.2.1, .optional x.2.2] := by
      decide
    exact fun x hx args => lengthFault_optional (hlayouts x hx) args
  · exact (addMarks_fault a b 0 rest).trans (Walk.fault_going rest)
  · intro a b n report head rest fields hn hhead hlength hfields
    have hall : List.Forall₂ (fun f n => ∀ l ∈ f, l.length = n) fields [2, 4, 1, 1, 3] :=
      List.forall₂_iff_zip.mpr ⟨hlength, fun {f n} h => hfields (f, n) h⟩
    have hentry := reads_markEntry hhead hall report
    refine ⟨?_, fun k hk => ?_, fun j presence hj hpresence => ?_⟩
    · rw [addMarks_fault_succ a b hn, List.append_cons, hentry.past, addMarks_fault]
      rfl
    · rw [addMarks_fault_succ a b hn, hentry.short k hk]
      rfl
    · rw [addMarks_fault_succ a b hn, walkItems_markEntry_badPresence hhead hall hj hpresence]
      rfl

end Sys2Proof.Machine

/-!
PROOF. IDENTIFY, STATUS, TIME, RESET_DEVICE and ABORT (chapter 8). They settle O51.
-/

namespace Sys2Proof.Machine

/-! ## ABORT (R154) -/

section
variable {s : State}

/-- An entry of the table is the one with its slot. -/
theorem Deferred.eq_of_slot {table : List Deferred} (hnodup : (table.map Deferred.slot).Nodup) {d e : Deferred} (hd : d ∈ table)
    (he : e ∈ table) (h : d.slot = e.slot) : d = e :=
  List.inj_on_of_nodup_map hnodup hd he h

/-- R149, R154: an entry that an ABORT ends leaves the table, its reply ABORTED under its tag. -/
theorem abortEntry_handler {d : Deferred} (hnodup : (s.handler.table.map Deferred.slot).Nodup) (hd : d ∈ s.handler.table) :
    ∃ results, (abortEntry s d).handler = (s.handler.dropEntry d.slot).complete d.slot
      { tag := d.tag, code := d.code, status := .aborted, results := results } := by
  have ended (l : List Byte) (u : State) (hu : u.handler = s.handler) : (endDeferred d.slot .aborted l u).handler =
      (s.handler.dropEntry d.slot).complete d.slot { tag := d.tag, code := d.code, status := .aborted, results := l } := by
    rcases endDeferred_handler d.slot .aborted l u with ⟨hno, -⟩ | ⟨e, he, heq⟩
    · exact absurd rfl (hno d (hu ▸ hd))
    · rw [hu] at he
      obtain rfl : e = d := Deferred.eq_of_slot hnodup (List.mem_of_find?_eq_some he) hd (by simpa using List.find?_some he)
      rw [heq, hu]
      rfl
  unfold abortEntry
  split
  · exact ⟨_, ended _ s rfl⟩
  · refine ⟨_, ended _ _ ?_⟩
    split <;> rfl

/-- R154: the entries that an ABORT ends leave the table. -/
theorem foldl_abortEntry_table (l : List Deferred) (s : State) :
    (l.foldl abortEntry s).handler.table = s.handler.table.filter fun x => x.slot ∉ l.map Deferred.slot := by
  induction l generalizing s with
  | nil => simp
  | cons d l ih =>
    rw [List.foldl_cons, ih, abortEntry_table, List.filter_filter]
    exact List.filter_congr fun x _ => Bool.eq_iff_iff.mpr (by simp [and_comm])

/-- R154: entries ended one after another take their places in the completion order, each with its reply. -/
theorem foldl_abortEntry_replies {l : List Deferred} (hl : (l.map Deferred.slot).Nodup)
    (hnodup : (s.handler.table.map Deferred.slot).Nodup) (hmem : ∀ d ∈ l, d ∈ s.handler.table) :
    (l.foldl abortEntry s).handler.order = s.handler.order ++ l.map Deferred.slot
      ∧ (∀ i, i ∉ l.map Deferred.slot → (l.foldl abortEntry s).handler.slots.get i = s.handler.slots.get i)
      ∧ ∀ d ∈ l, ∃ reply, (l.foldl abortEntry s).handler.slots.get d.slot = .completed reply ∧ reply.tag = d.tag
          ∧ reply.status = .aborted := by
  induction l generalizing s with
  | nil => simp
  | cons d l ih =>
    obtain ⟨hnew, hrest⟩ := List.nodup_cons.mp hl
    obtain ⟨results, hd⟩ := abortEntry_handler hnodup (hmem d List.mem_cons_self)
    have hnodup' : ((abortEntry s d).handler.table.map Deferred.slot).Nodup := by
      rw [abortEntry_table]
      exact hnodup.sublist (List.filter_sublist.map _)
    have hmem' : ∀ e ∈ l, e ∈ (abortEntry s d).handler.table := fun e he => by
      rw [abortEntry_table, List.mem_filter]
      exact ⟨hmem e (List.mem_cons_of_mem _ he), by simpa using fun h => hnew (List.mem_map.mpr ⟨e, he, h⟩)⟩
    obtain ⟨horder, hother, hreplies⟩ := ih hrest hnodup' hmem'
    rw [List.foldl_cons]
    refine ⟨?_, fun i hi => ?_, fun e he => ?_⟩
    · rw [horder, hd]
      simp
    · obtain ⟨hne, hi⟩ : i ≠ d.slot ∧ i ∉ l.map Deferred.slot := by simpa using hi
      rw [hother i hi, hd]
      exact Vector.getElem_set_ne d.slot.isLt i.isLt fun h => hne (Fin.ext h.symm)
    · rcases List.mem_cons.mp he with rfl | he
      · exact ⟨_, by rw [hother e.slot hnew, hd]; exact Vector.getElem_set_self .., rfl, rfl⟩
      · exact hreplies e he

/-- R154: the entries that carry another tag stay. -/
theorem filter_slot_not_mem {table : List Deferred} (hnodup : (table.map Deferred.slot).Nodup) (tag : Byte) :
    (table.filter fun x => x.slot ∉ (table.filter fun d => d.tag == tag).map Deferred.slot) = table.filter fun d => d.tag != tag := by
  refine List.filter_congr fun x hx => ?_
  rw [Bool.eq_iff_iff, decide_eq_true_eq, bne_iff_ne, not_iff_comm, not_not, List.mem_map]
  refine ⟨fun htag => ⟨x, List.mem_filter.mpr ⟨hx, by simpa using htag⟩, rfl⟩, ?_⟩
  rintro ⟨d, hd, hslot⟩
  obtain ⟨hd, htag⟩ := List.mem_filter.mp hd
  obtain rfl := Deferred.eq_of_slot hnodup hd hx hslot
  simpa using htag

variable {r : Request}

theorem abort_none (h : ∀ d ∈ s.handler.table, d.tag ≠ arg8 r.args 0) : abort r s = answer r .noSuchRequest [] s := by
  have hnone : s.handler.deferredWith (arg8 r.args 0) = [] := List.filter_eq_nil_iff.mpr (by simpa using h)
  simp [abort, hnone]

theorem abort_some (h : s.handler.deferredWith (arg8 r.args 0) ≠ []) :
    abort r s = answer r .ok [byte8 (s.handler.deferredWith (arg8 r.args 0)).length]
      ((s.handler.deferredWith (arg8 r.args 0)).foldl abortEntry s) := by
  simp [abort, h]

/-- R154: an ABORT of the one request that carries its tag. -/
theorem abort_one {d : Deferred} {before after : List Deferred} (htable : s.handler.table = before ++ d :: after)
    (htag : d.tag = arg8 r.args 0) (honly : ∀ x ∈ before ++ after, x.tag ≠ arg8 r.args 0) :
    abort r s = answer r .ok [1] (abortEntry s d) := by
  have hone : s.handler.deferredWith (arg8 r.args 0) = [d] := by
    have hbefore : ∀ x ∈ before, x.tag ≠ arg8 r.args 0 := fun x hx => honly x (List.mem_append_left _ hx)
    have hafter : ∀ x ∈ after, x.tag ≠ arg8 r.args 0 := fun x hx => honly x (List.mem_append_right _ hx)
    rw [Handler.deferredWith, htable, List.filter_append, List.filter_cons_of_pos (by simpa using htag),
      List.filter_eq_nil_iff.mpr (by simpa using hbefore), List.filter_eq_nil_iff.mpr (by simpa using hafter)]
    rfl
  rw [abort_some (by simp [hone]), hone]
  rfl

/-- R154: a DRAIN that an ABORT ends is answered with the queue count. -/
theorem abortEntry_drain {d : Deferred} (h : d.isDrain = true) (s : State) :
    abortEntry s d = endDeferred d.slot .aborted [byte8 s.reportQueue.entries.length] s := by
  rcases d with ⟨_ | _, _⟩
  · cases h
  · rfl

/-- R34, R154: a HOME that an ABORT ends takes its axis from SEEKING to FREE. -/
theorem abortEntry_home {d : Deferred} {a : AxisNo} (hkind : d.kind = .home a) (hstate : (s.axis a).state = .seeking) :
    abortEntry s d = endDeferred d.slot .aborted []
      ((s.setAxis a { s.axis a with state := .free, homing := none }).formRecord (.state a .seeking .free .request)) := by
  simp [abortEntry, hkind, hstate, State.changeState]

end

/-- Settles O51: IDENTIFY, TIME, STATUS and RESET_DEVICE by their definitions, ABORT by `abortEntry_handler`. -/
theorem generalRequestsAreAnswered : Obligations.GeneralRequestsAreAnswered := by
  unfold Obligations.GeneralRequestsAreAnswered
  rintro s r q rfl
  refine ⟨fun hex => exec_request hex rfl, fun hex => exec_request hex rfl, fun hex h => ?_, fun clear hex h => ?_,
    fun hex => exec_request hex rfl, fun hex h => exec_request hex (abort_none h), ?_, ?_⟩
  · refine exec_request hex ?_
    rw [status, onOffOf_eq_none.mpr h]
  · refine exec_request hex ?_
    rw [status, onOffOf_eq_some.mpr h]
    rfl
  · rintro l hex hnodup rfl hne
    have hmem : ∀ d ∈ s.handler.deferredWith (arg8 r.args 0), d ∈ s.handler.table := fun d hd => List.mem_of_mem_filter hd
    obtain ⟨horder, -, hreplies⟩ := foldl_abortEntry_replies (hnodup.sublist (List.filter_sublist.map _)) hnodup hmem
    refine ⟨_, exec_request hex (abort_some hne), ?_, horder, hreplies⟩
    rw [foldl_abortEntry_table]
    exact filter_slot_not_mem hnodup _
  · intro d before after hex htable htag honly
    refine ⟨fun hdrain => exec_request hex ?_, fun a hkind hstate => exec_request hex ?_⟩
    · rw [abort_one htable htag honly, abortEntry_drain hdrain]
    · rw [abort_one htable htag honly, abortEntry_home hkind hstate]

end Sys2Proof.Machine

/-!
PROOF. The session controller (chapter 9): ACK and NAK, the session requests, the ack timer, and the end of a DRAIN. They settle O52, O53
and O54.
-/

namespace Sys2Proof.Machine

/-! ## ACK and NAK (R164, R165) -/

/-- R164: the number names an entry that has left the part. -/
theorem ReportQueue.acknowledges_iff {q : ReportQueue} {n : Word16} :
    q.acknowledges n = true ↔ ∃ e, q.lookup n = some e ∧ 1 ≤ e.sends := by
  unfold ReportQueue.acknowledges
  cases q.lookup n <;> simp

/-- R117: an entry that a number names stands in the queue. -/
theorem ReportQueue.place_lt {q : ReportQueue} {n : Word16} {e : QueueEntry} (h : q.lookup n = some e) :
    q.place n < q.entries.length :=
  (List.getElem?_eq_some_iff.mp h).1

/-- R115: the GAP admission adds at most one entry at the end. -/
theorem ReportQueue.admitGap_entries_ne_nil {q : ReportQueue} (h : q.entries ≠ []) (stamp : Word32) (removed : Nat) :
    (q.admitGap stamp removed).entries ≠ [] := by
  unfold ReportQueue.admitGap
  split
  · exact h
  · simp [ReportQueue.append]

/-- R165: a NAK leaves the entry that it names. -/
theorem ReportQueue.removeBefore_ne_nil {q : ReportQueue} {n : Word16} {e : QueueEntry} (h : q.lookup n = some e) (stamp : Word32) :
    (q.removeBefore stamp n).revert.entries ≠ [] := by
  have hlt := ReportQueue.place_lt h
  have hleft : (q.removeBefore stamp n).entries ≠ [] :=
    ReportQueue.admitGap_entries_ne_nil (q := { q with entries := q.entries.drop (q.place n) }) (by simpa using hlt) _ _
  simpa [ReportQueue.revert] using hleft

/-- R122: the empty event is that a queue that held entries holds none. -/
theorem afterRemoval_held {s : State} (h : s.reportQueue.entries ≠ []) (q : ReportQueue) :
    afterRemoval q s = if q.entries = [] then emptyEvent (s.setQueue q) else s.setQueue q := by
  refine if_congr ?_ rfl rfl
  simp [emptied, h]

/-- The queue and the session are set apart. -/
theorem afterRemoval_setSession {s : State} (h : s.reportQueue.entries ≠ []) (q : ReportQueue) (x : Session) :
    afterRemoval q (s.setSession x) =
      if q.entries = [] then emptyEvent ((s.setQueue q).setSession x) else (s.setQueue q).setSession x :=
  afterRemoval_held (s := s.setSession x) h q

section
variable {s : State} {n : Word16}

/-- R164, R165: an ACK or a NAK that is not valid changes nothing. -/
theorem takeAck_invalid (h : s.session.state ≠ .opened ∨ s.reportQueue.acknowledges n = false) : takeAck n s = s := by
  refine if_neg fun ⟨hopen, hvalid⟩ => ?_
  rcases h with h | h
  · exact h hopen
  · rw [h] at hvalid
    cases hvalid

theorem takeNak_invalid (h : s.session.state ≠ .opened ∨ s.reportQueue.acknowledges n = false) : takeNak n s = s := by
  refine if_neg fun ⟨hopen, hvalid⟩ => ?_
  rcases h with h | h
  · exact h hopen
  · rw [h] at hvalid
    cases hvalid

/-- R164: a valid ACK. -/
theorem takeAck_valid (hopen : s.session.state = .opened) (hvalid : s.reportQueue.acknowledges n = true) :
    takeAck n s = afterRemoval (s.reportQueue.removeThrough s.timebase n) (s.setSession
      { s.session with retries := 0, ackTimer := s.ackTimerAfter (s.reportQueue.removeThrough s.timebase n) }) :=
  if_pos ⟨hopen, hvalid⟩

/-- R165: a valid NAK. -/
theorem takeNak_valid (hopen : s.session.state = .opened) (hvalid : s.reportQueue.acknowledges n = true) :
    takeNak n s = afterRemoval (s.reportQueue.removeBefore s.timebase n).revert
      (s.setSession { s.session with retries := 0, ackTimer := none }) :=
  if_pos ⟨hopen, hvalid⟩

/-- R131, R166: an ACK that can come is heard and judged. -/
theorem exec_ackFrame (hcome : FrameMayCome s) :
    exec (.ackFrame n) s = .next (takeAck n (hostHeard (s.setRx s.rx.toHunt))) := by
  refine (whenRunning_running hcome.1).trans (congrArg _ ?_)
  rw [takeFrame_of_mayCome hcome]
  exact (routeFrame_ack _ _).trans (congrArg (takeAck · _) (append_bytes16 n))

/-- R131, R166: a NAK that can come is heard and judged. -/
theorem exec_nakFrame (hcome : FrameMayCome s) :
    exec (.nakFrame n) s = .next (takeNak n (hostHeard (s.setRx s.rx.toHunt))) := by
  refine (whenRunning_running hcome.1).trans (congrArg _ ?_)
  rw [takeFrame_of_mayCome hcome]
  exact (routeFrame_nak _ _).trans (congrArg (takeNak · _) (append_bytes16 n))

/-- R166: a good frame leaves a session OPEN when it was not CLOSED. -/
theorem hostHeard_opened (s : State) : (hostHeard s).session.state = .opened ↔ s.session.state ≠ .closed := by
  unfold hostHeard
  cases h : s.session.state <;> simp [h, State.setSession]

end

/-- Settles O52: by `takeAck` and `takeNak`, valid and not. -/
theorem acksAndNaksAreJudged : Obligations.AcksAndNaksAreJudged := by
  unfold Obligations.AcksAndNaksAreJudged
  rintro s heard n q hcome rfl hheard
  have hheard : heard = hostHeard (s.setRx s.rx.toHunt) := hheard.trans (hostHeard_toHunt s).symm
  have hqueue : heard.reportQueue = s.reportQueue := by rw [hheard, hostHeard_toHunt]; rfl
  have htime : heard.timebase = s.timebase := by rw [hheard, hostHeard_toHunt]
  have hopened : heard.session.state = .opened ↔ s.session.state ≠ .closed := by rw [hheard]; exact hostHeard_opened _
  rw [exec_ackFrame hcome, exec_nakFrame hcome, ← hheard]
  refine ⟨fun h => ?_, fun e hsession he hsent => ?_⟩
  · have hinvalid : heard.session.state ≠ .opened ∨ heard.reportQueue.acknowledges n = false := by
      rw [hqueue]
      rcases h with h | h | ⟨e, he, hsends⟩
      · exact .inl fun hopen => hopened.mp hopen h
      · exact .inr (by simp [ReportQueue.acknowledges, h])
      · exact .inr (by simp [ReportQueue.acknowledges, he, hsends])
    exact ⟨congrArg _ (takeAck_invalid hinvalid), congrArg _ (takeNak_invalid hinvalid)⟩
  · have hopen := hopened.mpr hsession
    have hvalid : heard.reportQueue.acknowledges n = true := by
      rw [hqueue]
      exact ReportQueue.acknowledges_iff.mpr ⟨e, he, hsent⟩
    have hheld : heard.reportQueue.entries ≠ [] := by
      have := ReportQueue.place_lt he
      rw [hqueue]
      exact fun h => by simp [h] at this
    have htimer : heard.freshAckTimer = some (s.clock + s.session.ackTimeout * 20000) := by
      rw [hheard, hostHeard_toHunt]
      unfold State.freshAckTimer State.afterMillis
      dsimp only
      split <;> rfl
    refine ⟨_, _, rfl, congrArg _ ?_, rfl, congrArg _ ?_⟩
    · rw [takeAck_valid hopen hvalid, State.ackTimerAfter, htimer, hqueue, htime]
      exact afterRemoval_setSession hheld ..
    · rw [takeNak_valid hopen hvalid, hqueue, htime]
      exact (afterRemoval_setSession hheld ..).trans (if_neg (ReportQueue.removeBefore_ne_nil he _))

/-! ## OPEN_SESSION, CLOSE_SESSION and DRAIN -/

/-- R161: the ranges of the session parameters. -/
theorem sessionInRange_iff {w timeout retry : Nat} :
    sessionInRange w timeout retry = true ↔ w ≤ 16 ∧ (timeout = 0 ∨ (10 ≤ timeout ∧ timeout ≤ 2000)) ∧ retry ≤ 15 := by
  simp [sessionInRange, and_assoc]

section
variable {s : State} {r : Request}

theorem openSession_wrongState (h : s.session.state ≠ .closed) : openSession r s = answer r .wrongState [] s := if_pos h

/-- R174: the option byte of OPEN_SESSION. -/
theorem openSession_badOption (h : s.session.state = .closed) (hfresh : onOffOf (arg8 r.args 4) = none) :
    openSession r s = answer r .badArgument [] s := by
  simp [openSession, h, hfresh]

/-- R161: a session parameter out of its range. -/
theorem openSession_badRange (h : s.session.state = .closed)
    (hrange : sessionInRange (arg8 r.args 0).toNat (arg16 r.args 1).toNat (arg8 r.args 3).toNat = false) :
    openSession r s = answer r .badArgument [] s := by
  cases hfresh : onOffOf (arg8 r.args 4) <;> simp [openSession, h, hrange, hfresh]

/-- R161: OPEN_SESSION that keeps the records. -/
theorem openSession_resume (h : s.session.state = .closed)
    (hrange : sessionInRange (arg8 r.args 0).toNat (arg16 r.args 1).toNat (arg8 r.args 3).toNat = true)
    (hfresh : arg8 r.args 4 = 0) :
    openSession r s = answer r .ok (s.occupancyBytes ++ [0])
      (s.setSession (openedSession (arg8 r.args 0).toNat (arg16 r.args 1).toNat (arg8 r.args 3).toNat s.session)) := by
  have hoption : onOffOf (0 : Byte) = some false := rfl
  simp only [openSession, h, hfresh, hoption, hrange]
  rfl

/-- R122: without a deferred DRAIN a removal changes the queue alone. -/
theorem afterRemoval_noDrain (h : s.handler.drain = none) (q : ReportQueue) : afterRemoval q s = s.setQueue q := by
  unfold afterRemoval
  split
  · rw [emptyEvent, State.setQueue_handler, h]
  · rfl

/-- R161: OPEN_SESSION that discards the records. -/
theorem openSession_fresh (h : s.session.state = .closed)
    (hrange : sessionInRange (arg8 r.args 0).toNat (arg16 r.args 1).toNat (arg8 r.args 3).toNat = true)
    (hfresh : arg8 r.args 4 = 1) (hdrain : s.handler.drain = none) :
    openSession r s = answer r .ok
      (bytes16 (s.reportQueue.discardAll s.timebase).oldest
        ++ [byte8 (s.reportQueue.discardAll s.timebase).entries.length, byte8 s.reportQueue.entries.length])
      ((s.setSession (openedSession (arg8 r.args 0).toNat (arg16 r.args 1).toNat (arg8 r.args 3).toNat s.session)).setQueue
        (s.reportQueue.discardAll s.timebase)) := by
  have hoption : onOffOf (1 : Byte) = some true := rfl
  have hremoval := afterRemoval_noDrain (s := s.setSession
    (openedSession (arg8 r.args 0).toNat (arg16 r.args 1).toNat (arg8 r.args 3).toNat s.session)) hdrain
    (s.reportQueue.discardAll s.timebase)
  simp only [openSession, h, hfresh, hoption, hrange, hremoval]
  rfl

/-- R153: the deferred DRAIN of a session that closes. -/
theorem endDrain_eq (st : Status) (s : State) :
    endDrain st s = s.handler.drain.elim s fun d => endDeferred d.slot st [s.queueCountByte] s := by
  unfold endDrain
  cases s.handler.drain <;> rfl

/-- The ending of a deferred DRAIN leaves the report queue. -/
theorem endDrain_occupancyBytes (st : Status) (s : State) : (endDrain st s).occupancyBytes = s.occupancyBytes := by
  rw [endDrain_eq]
  cases s.handler.drain with
  | none => rfl
  | some d =>
    dsimp only [Option.elim]
    rw [endDeferred_eq]
    rfl

/-- R169: a session that closes keeps its entries in their order. -/
theorem closeSessionState_occupancyBytes (s : State) : (closeSessionState s).occupancyBytes = s.occupancyBytes := by
  rw [closeSessionState_eq]
  by_cases h : s.session.state = .closed
  · rw [if_pos h, if_pos h]
  · rw [if_neg h, if_neg h]
    have hlength : s.reportQueue.revert.entries.length = s.reportQueue.entries.length := ReportQueue.revert_length _
    have holdest : s.reportQueue.revert.oldest = s.reportQueue.oldest := ReportQueue.revert_oldest _
    exact congrArg₂ (fun w n => bytes16 w ++ [byte8 n]) holdest hlength

theorem closeSession_closed (h : s.session.state = .closed) : closeSession r s = answer r .ok s.occupancyBytes s := if_pos h

/-- R169: CLOSE_SESSION. -/
theorem closeSession_open (h : s.session.state ≠ .closed) :
    closeSession r s = answer r .ok s.occupancyBytes (endDrain .interrupted (closeSessionState s)) := by
  rw [closeSession, if_neg h]
  dsimp only
  rw [endDrain_occupancyBytes, closeSessionState_occupancyBytes]

end

/-- R148: the deferred DRAIN is an entry of the table. -/
theorem Handler.drain_isSome (h : Handler) : h.drain.isSome = h.table.any Deferred.isDrain := by
  rw [Handler.drain, Bool.eq_iff_iff, List.find?_isSome, List.any_eq_true]

/-- Settles O53: the requests by their checks. -/
theorem sessionRequestsAreJudged : Obligations.SessionRequestsAreJudged := by
  unfold Obligations.SessionRequestsAreJudged
  rintro s r q rfl
  refine ⟨?_, fun hex => ⟨fun h => exec_request hex (closeSession_closed h), ?_⟩, ?_⟩
  · rintro w timeout retry hex rfl rfl rfl
    refine ⟨fun h => exec_request hex (openSession_wrongState h), fun h hbad => exec_request hex ?_, ?_⟩
    · by_cases hoption : 1 < (arg8 r.args 4).toNat
      · exact openSession_badOption h (onOffOf_eq_none.mpr hoption)
      · refine openSession_badRange h (Bool.eq_false_iff.mpr fun hrange => ?_)
        obtain ⟨hw, htimeout, hretry⟩ := sessionInRange_iff.mp hrange
        omega
    · rintro opened h hw htimeout hretry rfl
      have hrange := sessionInRange_iff.mpr ⟨hw, htimeout, hretry⟩
      refine ⟨fun hfresh => exec_request hex ?_, fun hfresh hdrain => exec_request hex ?_⟩
      · rw [openSession_resume h hrange hfresh]
        rfl
      · rw [openSession_fresh h hrange hfresh hdrain]
        rfl
  · rintro closed h rfl
    refine exec_request hex ?_
    rw [closeSession_open h, endDrain_eq, closeSessionState_handler, closeSessionState, if_neg h]
    refine congrArg (answer r .ok _) ?_
    have hcount : ((s.setQueue s.reportQueue.revert).setSession
        { s.session with state := .closed, retries := 0, ackTimer := none }).queueCountByte = byte8 s.reportQueue.entries.length :=
      congrArg byte8 (ReportQueue.revert_length s.reportQueue)
    rw [hcount, Handler.drain]
    cases s.handler.table.find? Deferred.isDrain <;> rfl
  · rintro limit hex rfl
    refine exec_request hex ?_
    simp only [drain, Handler.drain_isSome, List.isEmpty_iff]
    rfl

/-! ## The timers (R122, R153, R167) -/

section
variable {s : State}

theorem State.reached_some {stop : Nat} : s.reached (some stop) = true ↔ stop ≤ s.clock := by
  simp [State.reached]

/-- R167: the ack timer has come to its end. -/
theorem takeAckExpiry_reached {stop : Nat} (hopen : s.session.state = .opened) (htimer : s.session.ackTimer = some stop)
    (h : stop ≤ s.clock) :
    takeAckExpiry s = (s.setQueue s.reportQueue.revert).setSession
      { s.session with
        retries := s.session.retries + 1, ackTimer := none
        state := if s.session.retries + 1 ≤ s.session.retryLimit then .opened else .stalled } :=
  if_pos ⟨hopen, by rw [htimer]; exact State.reached_some.mpr h⟩

theorem takeAckExpiry_idle (h : s.session.state ≠ .opened ∨ s.session.ackTimer = none
    ∨ ∃ stop, s.session.ackTimer = some stop ∧ s.clock < stop) : takeAckExpiry s = s := by
  refine if_neg fun ⟨hopen, hreached⟩ => ?_
  rcases h with h | h | ⟨stop, htimer, h⟩
  · exact h hopen
  · rw [h] at hreached
    cases hreached
  · rw [htimer] at hreached
    exact absurd (State.reached_some.mp hreached) (Nat.not_le.mpr h)

theorem emptyEvent_noDrain (h : s.handler.drain = none) : emptyEvent s = s := by
  simp [emptyEvent, h]

theorem takeDrainExpiry_noDrain (h : s.handler.drain = none) : takeDrainExpiry s = s := by
  simp [takeDrainExpiry, h]

/-- R153: the ending of the deferred DRAIN. -/
theorem endDrain_some {d : Deferred} (h : s.handler.drain = some d) (st : Status) :
    endDrain st s = endDeferred d.slot st [s.queueCountByte] s := by
  simp [endDrain, h]

/-- R122: the empty event ends a DRAIN whose time has not run out. -/
theorem emptyEvent_before {d : Deferred} (h : s.handler.drain = some d) (htime : s.reached d.deadline = false) :
    emptyEvent s = endDeferred d.slot .ok [s.queueCountByte] s := by
  simp [emptyEvent, h, htime, endDrain_some h]

/-- R122, R153: with the drain timer run out too, a free value decides (log entry 12). -/
theorem emptyEvent_race {d : Deferred} (h : s.handler.drain = some d) (htime : s.reached d.deadline = true) :
    emptyEvent s = endDeferred d.slot (if Config.emptyFirst s.draws then .ok else .timedOut) [s.queueCountByte]
      { s with draws := s.draws + 1 } := by
  simp only [emptyEvent, h, htime]
  exact endDrain_some (s := { s with draws := s.draws + 1 }) h _

/-- R153: the drain timer ends a DRAIN at its moment, and not before. -/
theorem takeDrainExpiry_some {d : Deferred} (h : s.handler.drain = some d) :
    takeDrainExpiry s = if s.reached d.deadline then endDeferred d.slot .timedOut [s.queueCountByte] s else s := by
  simp [takeDrainExpiry, h, endDrain_some h]

end

/-- A command with nothing to take leaves the state, RESETN low or high. -/
theorem whenRunning_same {f : State → State} {s : State} (h : f s = s) : whenRunning f s = .next s := by
  cases hlow : s.resetLow <;> simp [whenRunning, hlow, h]

/-- Settles O54: the ack timer by `takeAckExpiry`, a DRAIN by `emptyEvent` and `takeDrainExpiry`. -/
theorem deliveryTimersExpire : Obligations.DeliveryTimersExpire := by
  unfold Obligations.DeliveryTimersExpire
  refine ⟨fun s hrun => ⟨fun stop hopen htimer h => ?_, fun h => ?_⟩, fun s => ⟨fun h => ⟨emptyEvent_noDrain h, ?_⟩, ?_⟩⟩
  · exact (whenRunning_running hrun).trans (congrArg _ (takeAckExpiry_reached hopen htimer h))
  · exact whenRunning_idle hrun (takeAckExpiry_idle h)
  · exact whenRunning_same (takeDrainExpiry_noDrain h)
  · intro d limit deadline hd hkind
    have hdeadline : d.deadline = some deadline := by simp [Deferred.deadline, hkind]
    refine ⟨fun h => ?_, fun h => ⟨?_, fun hrun => ?_⟩⟩
    · have hbefore : s.reached d.deadline = false := by
        rw [hdeadline, Bool.eq_false_iff, Ne, State.reached_some]
        exact Nat.not_le.mpr h
      refine ⟨emptyEvent_before hd hbefore, whenRunning_same ?_⟩
      rw [takeDrainExpiry_some hd, hbefore]
      rfl
    · refine ⟨_, ?_, emptyEvent_race hd (by rw [hdeadline]; exact State.reached_some.mpr h)⟩
      cases Config.emptyFirst s.draws
      · exact .inr rfl
      · exact .inl rfl
    · refine (whenRunning_running hrun).trans (congrArg _ ?_)
      rw [takeDrainExpiry_some hd, if_pos (by rw [hdeadline]; exact State.reached_some.mpr h)]
      rfl

end Sys2Proof.Machine
